-- ==== Sys2Proof/Word.lean ====
section
/-! DEFINITION. The plain carriers of the model: bytes of frames and label records, text fields, canister
positions, drive channels and timers. Quantities (volumes, masses, steps, times) are natural numbers in
the unit the manual states for them (section 0.9); a net mass is an integer (R122). -/

namespace Sys2Proof

/-- One byte of a frame body or of a label record (R174). -/
abbrev Byte := BitVec 8

/-- A run of bytes, first byte first. -/
abbrev Bytes := List Byte

/-- A text field: its characters, padded on the right with spaces to the stated length (section 0.12). -/
abbrev Text := List Byte

/-- A canister position, P0 to P15 (section 0.8). -/
abbrev Pos := Fin 16

/-- A drive channel, D0 to D3 (section 0.8). -/
abbrev ChanId := Fin 4

/-- A timer: the milliseconds left while it runs, absent while it is stopped. -/
abbrev Timer := Option Nat

end Sys2Proof
end

