-- ==== Sys2Proof/Syntax.lean ====
section
/-! DEFINITION. The commands of the part: one constructor for each row of spec/opcode_table.json. A request
row is the taking of that request from the head of a port's receive hold (R163): its operands are the
port, the frame's tag and the frame's body bytes (R175, R177, R178). The other rows are events of the
serial ports, of the machine-side lines (section 0.4), of the RESET input, of power, and of the part's
own timers. -/

namespace Sys2Proof

/-- The four master ports (section 0.5). -/
inductive Port where
  | a
  | b
  | c
  | w
deriving DecidableEq, Repr

/-- The two mixers (section 0.2). -/
inductive MixerId where
  | m1
  | m2
deriving DecidableEq, Repr

/-- The four dispatch lanes (section 0.2). -/
inductive Lane where
  | la
  | lb
  | lc
  | lx
deriving DecidableEq, Repr

/-- Names of the records of the settings store (R154): the one being written when power is lost or RESET
is asserted is named by such a key (R155). -/
inductive StoreKey where
  | canister (p : Pos)
  | tinClass (code : Text)
  | settings
deriving DecidableEq, Repr

/-- The commands, in the order of the table. -/
inductive Instr where
  | submit (p : Port) (tag : Byte) (body : Bytes)
  | cancel (p : Port) (tag : Byte) (body : Bytes)
  | resume (p : Port) (tag : Byte) (body : Bytes)
  | retire (p : Port) (tag : Byte) (body : Bytes)
  | readJob (p : Port) (tag : Byte) (body : Bytes)
  | readTin (p : Port) (tag : Byte) (body : Bytes)
  | install (p : Port) (tag : Byte) (body : Bytes)
  | remove (p : Port) (tag : Byte) (body : Bytes)
  | calibrate (p : Port) (tag : Byte) (body : Bytes)
  | refillBegin (p : Port) (tag : Byte) (body : Bytes)
  | refillEnd (p : Port) (tag : Byte) (body : Bytes)
  | adjust (p : Port) (tag : Byte) (body : Bytes)
  | readCanister (p : Port) (tag : Byte) (body : Bytes)
  | setTinClassSet (p : Port) (tag : Byte) (body : Bytes)
  | setTinClassDelete (p : Port) (tag : Byte) (body : Bytes)
  | setLine (p : Port) (tag : Byte) (body : Bytes)
  | lineModePark (p : Port) (tag : Byte) (body : Bytes)
  | lineModeWake (p : Port) (tag : Byte) (body : Bytes)
  | resumeLine (p : Port) (tag : Byte) (body : Bytes)
  | mixerReturn (p : Port) (tag : Byte) (body : Bytes)
  | find (p : Port) (tag : Byte) (body : Bytes)
  | status (p : Port) (tag : Byte) (body : Bytes)
  | fetchNotice (p : Port) (tag : Byte) (body : Bytes)
  | clearPort (p : Port) (tag : Byte) (body : Bytes)
  /-- A complete frame has arrived on port `p`: its kind, tag and body bytes and the CRC it carries. -/
  | frameReceived (p : Port) (kind tag : Byte) (body : Bytes) (crc : BitVec 16)
  | frameGapTimeout (p : Port)
  | answerSent (p : Port)
  | burstDone (pos : Pos) (steps : Nat)
  | chargeDone (pos : Pos)
  | recircDone (pos : Pos)
  | haltReport (pos : Pos) (steps : Nat)
  | reading (mass : Nat) (stable overload : Bool)
  | scan (cls base : Text)
  | loaded (m : MixerId)
  | clampFault (m : MixerId)
  | lidded
  | tinTaken (lane : Lane)
  | guardOpened
  | guardClosed
  /-- RESET is asserted; `writing` names the store record being written at that moment, if any (R155). -/
  | resetAssert (writing : Option StoreKey)
  | partStart
  | settleTimerExpiry (pos : Pos)
  | keepStirTimerExpiry (pos : Pos)
  | callTimerExpiry
  | dwellTimerExpiry (d : ChanId)
  | dripTimerExpiry
  | scaleSettleTimeout
  | mixTimerExpiry (m : MixerId)
  /-- Power is lost; `writing` names the store record being written at that moment, if any (R155). -/
  | powerLoss (writing : Option StoreKey)
  | frameStartByte (p : Port)
  | lengthByteAbove240 (p : Port) (len : Byte)
deriving DecidableEq, Repr

end Sys2Proof
end

