-- ==== Sys2Proof/Decode.lean ====
section
/-! DEFINITION. The command a word spells by the bits of spec/opcode_table.json. No row of the table gives
bits (every row's "fields" is empty and none has "fixed"), so no word spells a command. The byte layouts
of request frames (Chapter 11) are read by the request meanings (Machine/Operands.lean). -/

namespace Sys2Proof

/-- No row of the table gives bits: a word spells no command. -/
def decodeTableWord (_nbits _w : Nat) : Option Instr := none

end Sys2Proof
end

