-- ==== Sys2Proof/Config.lean ====
section
/-! DEFINITION. The numbers the manual fixes: table sizes, capacities, ranges and fixed times. The manual
leaves no value to the implementation and no result undefined, so this file holds no free value. -/

namespace Sys2Proof.Config

/-- Entries of the tin result pool (R64). -/
def poolEntries : Nat := 400
/-- Most tin class records (R81). -/
def maxClasses : Nat := 12
/-- Complete frames a receive hold keeps (R162). -/
def holdFrames : Nat := 2
/-- Error answers that may be out at once on a port (R163). -/
def maxErrorAnswers : Nat := 2
/-- Notices a queue holds (R166). -/
def maxNotices : Nat := 16
/-- Longest frame body (R160, R175). -/
def maxBody : Nat := 240
/-- Longest gap between two bytes of a frame, in ms (R160). -/
def gapMs : Nat := 20
/-- The fixed drip, in ms (R111). -/
def dripMs : Nat := 400
/-- Call expiries in a row that suspend a job (R91). -/
def expiryLimit : Nat := 3
/-- Where the attempts count of a tin result holds (R65). -/
def maxAttempts : Nat := 99
/-- The change count wraps to 0 after 65,535 (R23). -/
def countModulus : Nat := 65536
/-- Largest normalised amount, in microlitres (R1, R3). -/
def maxAmount : Nat := 2000000
/-- Largest mass a READING carries, in mg (R119). -/
def maxMass : Nat := 100000000

/-- An inclusive range of whole numbers. -/
structure Range where
  lo : Nat
  hi : Nat
deriving DecidableEq, Repr

/-- Whether a value lies in a range. -/
def Range.has (r : Range) (n : Nat) : Bool := decide (r.lo ≤ n) && decide (n ≤ r.hi)

/-- A value clamped to a range (R153). -/
def Range.clamp (r : Range) (n : Nat) : Nat := max r.lo (min n r.hi)

/-- The ranges of the declared fields of a canister record (R21). -/
def capacityRange : Range := ⟨500000000, 3000000000⟩
def heelRange : Range := ⟨0, 200000000⟩
def lowMarkRange : Range := ⟨0, 1000000000⟩
def stepVolumeRange : Range := ⟨100, 60000⟩
def densityRange : Range := ⟨800, 2500⟩
def strokeRange : Range := ⟨500, 20000⟩
def pulseRange : Range := ⟨10, 2000⟩
def dwellRange : Range := ⟨10, 2000⟩
def settleLimitRange : Range := ⟨1, 240⟩
def recircTimeRange : Range := ⟨5, 600⟩
def keepStirRange : Range := ⟨5, 120⟩

/-- The ranges of a SUBMIT (R1). -/
def vrefRange : Range := ⟨250, 20000⟩
def tinCountRange : Range := ⟨1, 99⟩

/-- The ranges of a tin class record (R81). -/
def fillRange : Range := ⟨250, 20000⟩
def headroomRange : Range := ⟨5, 800⟩
def mixTimeRange : Range := ⟨30, 600⟩

/-- The ranges of the line settings (R153). -/
def callTimeoutRange : Range := ⟨10, 600⟩
def quotaRange : Range := ⟨1, 20⟩
def scaleSettleRange : Range := ⟨1000, 10000⟩
def weighFloorRange : Range := ⟨0, 10000⟩
def absTolRange : Range := ⟨0, 5000⟩
def relTolRange : Range := ⟨0, 100⟩

end Sys2Proof.Config
end

