-- ==== Sys2Proof/Machine/State.lean ====
section
/-! DEFINITION. The state of the part as plain data: every record, queue, list, latch, timer and line that
the manual gives it, block by block (section 0.3), the settings store, and the queue of commands that
wait. `State.reset` is a new part right after its start. -/

namespace Sys2Proof.Machine

/-! ### Names used by several blocks -/

/-- A job handle: slot number and generation (R58). -/
structure Handle where
  slot : Fin 24
  gen : Nat
deriving DecidableEq, Repr

/-- The marks of a tin (R65, R187). -/
structure Marks where
  w : Bool
  n : Bool
  l : Bool
  s : Bool
deriving DecidableEq, Repr

/-- The state of the guard switch (R151, R187). -/
inductive GuardState where
  | opened
  | closed
deriving DecidableEq, Repr

/-- Whether the part runs. While it is held in RESET or without power it is inactive (R156). -/
inductive Power where
  | on
  | reset
  | off
deriving DecidableEq, Repr

/-! ### Line controller (Chapter 9) -/

/-- The line mode (R146). -/
inductive LineMode where
  | run
  | parking
  | parked
  | halted
deriving DecidableEq, Repr

/-- The six line settings (R153). -/
structure Settings where
  callTimeout : Nat
  quota : Nat
  scaleSettle : Nat
  weighFloor : Nat
  absTol : Nat
  relTol : Nat
deriving DecidableEq, Repr

/-- The line controller's items: mode, guard flag (present while HALTED) and settings (section 9.1). -/
structure Line where
  mode : LineMode
  guard : Option GuardState
  settings : Settings
deriving DecidableEq, Repr

/-! ### Canister table (Chapter 2) -/

/-- The canister states (section 2.2). -/
inductive CanState where
  | vacant
  | settled
  | recirc
  | ready
  | stirring
  | locked
deriving DecidableEq, Repr

/-- The fields of a canister record that the settings store keeps (R21, R41). -/
structure CanRecord where
  installed : Bool
  code : Text
  capacity : Nat
  heel : Nat
  lowMark : Nat
  q : Nat
  density : Nat
  stroke : Nat
  pulse : Nat
  dwell : Nat
  settleLimit : Nat
  recircTime : Nat
  keepStir : Nat
  level : Nat
  lot : Text
  count : Nat
deriving DecidableEq, Repr

/-- A canister position: the kept fields, and the state, latch, demand, timers and stirrer line that the
store does not keep (R21, R24, R25, R31). -/
structure Canister where
  kept : CanRecord
  state : CanState
  latch : Bool
  demand : Bool
  settleTimer : Timer
  keepTimer : Timer
  stirrer : Bool
deriving DecidableEq, Repr

/-! ### Dispense head (Chapter 6) -/

/-- The pump states (R99). -/
inductive PumpState where
  | idle
  | charging
  | burst
  | recirc
deriving DecidableEq, Repr

/-- A pump record: piston charge and pump state (R99). -/
structure Pump where
  charge : Nat
  state : PumpState
deriving DecidableEq, Repr

/-- The channel states (R102). -/
inductive ChanState where
  | free
  | waitRecirc
  | waitCharge
  | burst
  | dwell
  | done
deriving DecidableEq, Repr

/-- A drive channel context (R102) with its dwell timer (R109). `comp` counts components from 0. -/
structure Channel where
  comp : Nat
  pos : Pos
  remaining : Nat
  burst : Option Nat
  state : ChanState
  dwellTimer : Timer
deriving DecidableEq, Repr

/-- The station states (R97). -/
inductive StationState where
  | idle
  | calling
  | taring
  | dispensing
  | drip
  | weighing
  | handoff
deriving DecidableEq, Repr

/-- What has stopped the tin's dispensing (R97). -/
inductive DispStop where
  | none
  | cancel
  | guard
deriving DecidableEq, Repr

/-- The stage of a tin context, at the station, in a mixer or in the lidder (R97, R129, R136). -/
inductive Stage where
  | taring
  | dispensing
  | drip
  | weighing
  | mixWait
  | lidWait
  | mixing
  | lidding
  | laneWait
deriving DecidableEq, Repr

/-- The route of a tin (R97). -/
inductive Route where
  | normal
  | reject
deriving DecidableEq, Repr

/-- The label word of a tin bound for LX (R97, R139). -/
inductive LabelWord where
  | reject
  | spoiled
deriving DecidableEq, Repr

/-- A tin context: the record that travels with a physical tin (R97). -/
structure TinCtx where
  handle : Handle
  index : Nat
  stop : DispStop
  stage : Stage
  steps : List Nat
  dispensed : List Nat
  tare : Option Nat
  gross : Option Nat
  net : Option Int
  expected : Option Nat
  route : Route
  marks : Marks
  word : Option LabelWord
deriving DecidableEq, Repr

/-! ### Dispense scheduler (Chapter 5) -/

/-- The call record (R89). -/
structure Call where
  handle : Handle
  index : Nat
  cls : Text
  base : Text
deriving DecidableEq, Repr

/-- A tin class record (R81). -/
structure TinClass where
  code : Text
  fill : Nat
  headroom : Nat
  mixTime : Nat
deriving DecidableEq, Repr

/-! ### Weigh unit (Chapter 7) -/

/-- The capture state (R118). -/
inductive Capture where
  | none
  | tare
  | gross
deriving DecidableEq, Repr

/-! ### Mixers, lidder and lanes (Chapter 8) -/

/-- The mixer states (R129). -/
inductive MixState where
  | idle
  | loading
  | mixing
  | holding
  | out
deriving DecidableEq, Repr

/-- A mixer record (R129). -/
structure Mixer where
  state : MixState
  tin : Option TinCtx
  expected : Option (Handle × Nat)
  timer : Timer
deriving DecidableEq, Repr

/-- The sources that claim the lidder (R136). -/
inductive Source where
  | m1
  | m2
  | station
deriving DecidableEq, Repr

/-- The lidder states (R136). -/
inductive LidState where
  | idle
  | lidding
  | laneWait
deriving DecidableEq, Repr

/-- The label record (R139, R186). -/
structure Label where
  orderRef : Text
  colour : Text
  handle : Handle
  index : Nat
  count : Nat
  cls : Text
  base : Text
  lotCodes : List Text
  marks : Marks
  expected : Option Nat
  net : Option Int
  word : Option LabelWord
deriving DecidableEq, Repr

/-- The lidder record (R136). -/
structure Lidder where
  state : LidState
  tin : Option TinCtx
  label : Option Label
  dest : Option Lane
  cmdOut : Bool
  claims : List Source
deriving DecidableEq, Repr

/-- The lane counts (R142). -/
structure Lanes where
  la : Nat
  lb : Nat
  lc : Nat
  lx : Nat
deriving DecidableEq, Repr

/-! ### Job table (Chapter 4) -/

/-- A disposition for an exception class (R62). -/
inductive Disposition where
  | mark
  | stop
deriving DecidableEq, Repr

/-- The shortage option (R62). -/
inductive Shortage where
  | wait
  | refuse
deriving DecidableEq, Repr

/-- The job states (section 4.4). -/
inductive JobState where
  | waitingStock
  | ready
  | active
  | suspended
  | cancelling
  | done
  | cancelled
deriving DecidableEq, Repr

/-- The causes a JOB-STATE notice carries (R165). The suspension causes of a job are four of them (R67). -/
inductive Cause where
  | admitted
  | stockWait
  | stockGranted
  | callExpired
  | lotStop
  | weighStop
  | weighNoneStop
  | resumed
  | returnedWait
  | cancelled
  | done
deriving DecidableEq, Repr

/-- The outcome of a tin result entry (R65). -/
inductive TinOutcome where
  | pending
  | inFlight
  | delivered
  | notMade
deriving DecidableEq, Repr

/-- A tin result entry (R65). -/
structure TinResult where
  index : Nat
  outcome : TinOutcome
  attempts : Nat
  steps : Option (List Nat)
  expected : Option Nat
  net : Option Int
  marks : Option Marks
  lane : Option Lane
deriving DecidableEq, Repr

/-- A component record of a job (R20, R61): `a`, `exact` (the E of R6), `qSnap` and `cum` (the S(c) of R8)
are the formula unit's. -/
structure Component where
  pos : Pos
  code : Text
  amount : Text
  scale : Nat
  a : Nat
  exact : Nat
  qSnap : Nat
  cum : Nat
  substep : Bool
  lotSnap : Text
  reserved : Nat
  lotBreak : Bool
deriving DecidableEq, Repr

/-- A job record (R61). Its handle is its slot number with the slot's generation, and its result entries
are its own list, one per tin index (R64). -/
structure Job where
  owner : Port
  orderRef : Text
  colour : Text
  base : Text
  cls : Text
  vref : Nat
  n : Nat
  comps : List Component
  dSubstep : Disposition
  dWeighOut : Disposition
  dWeighNone : Disposition
  dLotBreak : Disposition
  shortage : Shortage
  state : JobState
  counted : Nat
  started : Nat
  delivered : Nat
  expiries : Nat
  pendingRe : Option (List Nat)
  cause : Option Cause
  results : List TinResult
deriving DecidableEq, Repr

/-- A job slot: its generation count and the job that occupies it, if any (R58). -/
structure Slot where
  gen : Nat
  job : Option Job
deriving DecidableEq, Repr

/-! ### Ports (Chapter 10) -/

/-- The request kinds, in the order of their codes (R176). -/
inductive ReqKind where
  | submit
  | cancel
  | resume
  | retire
  | readJob
  | readTin
  | install
  | remove
  | calibrate
  | refillBegin
  | refillEnd
  | adjust
  | readCanister
  | setTinClass
  | setLine
  | lineMode
  | resumeLine
  | mixerReturn
  | find
  | status
  | fetchNotice
  | clearPort
deriving DecidableEq, Repr

/-- A complete request frame in a receive hold (R161, R162). -/
structure Frame where
  kind : ReqKind
  tag : Byte
  body : Bytes
deriving DecidableEq, Repr

/-- An answer produced and not yet fully sent (R163). `isError` marks a FRAME-ERROR or OVERRUN answer
produced by the receiver. -/
structure Answer where
  kind : Byte
  tag : Byte
  body : Bytes
  isError : Bool
deriving DecidableEq, Repr

/-- A notice with its content as raised (R165). -/
inductive Notice where
  | guard (g : GuardState)
  | mixerFault (m : MixerId) (tin : Option (Handle × Nat))
  | jobState (h : Handle) (st : JobState) (cause : Cause)
  | tinCall (h : Handle) (index : Nat) (cls base : Text)
  | wrongTin (cls base : Text)
  | laneFull (lane : Lane)
  | tinOut (h : Handle) (index : Nat) (lane : Lane) (marks : Marks)
  | canisterLow (pos : Pos) (usable : Nat)
  | canisterWait (pos : Pos) (h : Handle) (steps volume : Nat)
  | line (mode : LineMode)
  | start (discards : Nat) (mode : LineMode)
deriving DecidableEq, Repr

/-- A port controller (R159). `rx` holds the bytes of the frame being received, start byte first, and is
empty in HUNT; `gap` is the 20 ms gap limit of R160. `notices` stands in queuing order, oldest first. -/
structure PortState where
  rx : Bytes
  gap : Timer
  hold : List Frame
  out : List Answer
  notices : List Notice
  lost : Bool
  attention : Bool
deriving DecidableEq, Repr

/-! ### Commands the part sends -/

/-- What the part has put on its machine-side lines and its ports (section 0.4, R163; the model's own record, DESIGN CHOICE,
log entry 13: safe). The gate, stirrer
and attention lines are levels and stand in State as such. -/
inductive Sent where
  | burst (pos : Pos) (steps : Nat)
  | charge (pos : Pos)
  | recirc (pos : Pos) (seconds : Nat)
  | halt
  | transfer (m : MixerId)
  | lidStart (label : Label)
  | answer (p : Port) (a : Answer)
deriving DecidableEq, Repr

/-! ### Settings store (section 9.4) -/

/-- A stored copy: its contents, and whether its check value agrees with them (R154; DESIGN CHOICE, log entry 16: safe). -/
structure Stored (α : Type) where
  data : α
  intact : Bool
deriving DecidableEq, Repr

/-- The settings store: up to 29 stored records (R154). -/
structure Store where
  canisters : Vector (Option (Stored CanRecord)) 16
  classes : List (Stored TinClass)
  settings : Option (Stored Settings)
deriving DecidableEq, Repr

/-! ### The whole machine -/

/-- The state of the part. -/
structure State where
  power : Power
  guardInput : GuardState
  line : Line
  ports : Vector PortState 4
  canisters : Vector Canister 16
  pumps : Vector Pump 16
  waits : Vector (List Handle) 16
  slots : Vector Slot 24
  classes : List TinClass
  queue : List Handle
  quota : Nat
  call : Option Call
  callTimer : Timer
  gateOpen : Bool
  station : StationState
  tin : Option TinCtx
  channels : Vector Channel 4
  dripTimer : Timer
  capture : Capture
  scaleTimer : Timer
  m1 : Mixer
  m2 : Mixer
  lidder : Lidder
  lanes : Lanes
  store : Store
  sent : List Sent
  pending : List Instr
deriving DecidableEq, Repr

/-- The part stops with no fault: the manual gives every command an effect in every state. -/
inductive Fault : Type
deriving DecidableEq, Repr

/-- Why exec gives a command no meaning. -/
inductive Refusal where
  /-- Raised by exec's arm of a command that has no meaning yet. Safe: the model stops. No arm raises it. -/
  | notModelled (mnemonic : String)
  /-- Raised by the meanings of FRAME_RECEIVED, READING, SCAN and LENGTH_BYTE_ABOVE_240 for an operand that
  the port or line cannot carry (`Instr.wf` is false): no such event exists. Safe: the model stops. -/
  | illFormed (mnemonic : String)
deriving DecidableEq, Repr

/-! ### Start values -/

/-- `n` spaces. -/
def spaces (n : Nat) : Text := List.replicate n 0x20

/-- The kept fields of a vacant position (R21). -/
def CanRecord.vacant : CanRecord :=
  { installed := false, code := spaces 3, capacity := 0, heel := 0, lowMark := 0, q := 0, density := 0
    stroke := 0, pulse := 0, dwell := 0, settleLimit := 0, recircTime := 0, keepStir := 0, level := 0
    lot := spaces 8, count := 0 }

/-- A vacant position (R21, R42). -/
def Canister.vacant : Canister :=
  { kept := CanRecord.vacant, state := .vacant, latch := false, demand := false, settleTimer := none
    keepTimer := none, stirrer := false }

/-- The start value of a pump record (R99). -/
def Pump.start : Pump := { charge := 0, state := .idle }

/-- A FREE channel (R102). -/
def Channel.free : Channel :=
  { comp := 0, pos := 0, remaining := 0, burst := none, state := .free, dwellTimer := none }

/-- An empty IDLE mixer (R129). -/
def Mixer.idle : Mixer := { state := .idle, tin := none, expected := none, timer := none }

/-- The start value of the lidder (R136). -/
def Lidder.start : Lidder :=
  { state := .idle, tin := none, label := none, dest := none, cmdOut := false, claims := [] }

/-- The default line settings (R153). -/
def Settings.default : Settings :=
  { callTimeout := 120, quota := 4, scaleSettle := 3000, weighFloor := 500, absTol := 200, relTol := 20 }

/-- The start value of a port controller (R159). -/
def PortState.start : PortState :=
  { rx := [], gap := none, hold := [], out := [], notices := [], lost := false, attention := false }

/-- No marks. -/
def Marks.none : Marks := { w := false, n := false, l := false, s := false }

/-- The store of a new part holds no records (R154). -/
def Store.empty : Store := { canisters := Vector.replicate 16 none, classes := [], settings := none }

/-- A new part right after its start with the guard closed (section 9.5): the START notice, with no
discarded record and line mode RUN, waits on every port (R158), and HALT has gone to the pumps (R156).
That reset stands here is a DESIGN CHOICE (log entries 3 and 4). -/
def State.reset : State :=
  { power := .on
    guardInput := .closed
    line := { mode := .run, guard := none, settings := Settings.default }
    ports := Vector.replicate 4 { PortState.start with notices := [.start 0 .run], attention := true }
    canisters := Vector.replicate 16 Canister.vacant
    pumps := Vector.replicate 16 Pump.start
    waits := Vector.replicate 16 []
    slots := Vector.replicate 24 { gen := 1, job := none }
    classes := []
    queue := []
    quota := 0
    call := none
    callTimer := none
    gateOpen := false
    station := .idle
    tin := none
    channels := Vector.replicate 4 Channel.free
    dripTimer := none
    capture := .none
    scaleTimer := none
    m1 := Mixer.idle
    m2 := Mixer.idle
    lidder := Lidder.start
    lanes := { la := 0, lb := 0, lc := 0, lx := 0 }
    store := Store.empty
    sent := [.halt]
    pending := [] }

end Sys2Proof.Machine
end

