-- ==== Sys2Proof/Machine/Ops.lean ====
section
/-! DEFINITION. Reading and updating the records of the state, and the passing of one millisecond on an
empty command queue. Every block's rules are written over these. -/

namespace Sys2Proof.Machine

/-! ### The members of each numbered set -/

/-- P0 to P15. -/
def allPos : List Pos := [0, 1, 2, 3, 4, 5, 6, 7, 8, 9, 10, 11, 12, 13, 14, 15]

/-- D0 to D3. -/
def allChans : List ChanId := [0, 1, 2, 3]

/-- Job slots 0 to 23. -/
def allSlots : List (Fin 24) :=
  [0, 1, 2, 3, 4, 5, 6, 7, 8, 9, 10, 11, 12, 13, 14, 15, 16, 17, 18, 19, 20, 21, 22, 23]

/-- Ports A, B, C and W, in the order the manual lists them. -/
def allPorts : List Port := [.a, .b, .c, .w]

/-- The place of a port's controller in `State.ports`. -/
def portIdx : Port → Fin 4
  | .a => 0
  | .b => 1
  | .c => 2
  | .w => 3

/-- Applies a function to every member of a numbered set. (Over lists, so that the kernel can evaluate it.) -/
def mapVec {α β : Type} {n : Nat} (f : α → β) (v : Vector α n) : Vector β n :=
  ⟨⟨v.toArray.toList.map f⟩, by simp⟩

/-! ### Power and line mode -/

/-- The part runs: it is neither held in RESET nor without power (R156). -/
def State.active (s : State) : Bool := s.power == .on

/-- The line is HALTED (R146). -/
def State.halted (s : State) : Bool := s.line.mode == .halted

/-- Does `f` if the part runs. An inactive part takes no request and no machine event (R156). -/
def State.whenActive (s : State) (f : State → State) : State := if s.active then f s else s

/-! ### Records -/

/-- The controller of a port. -/
def State.port (s : State) (p : Port) : PortState := s.ports[portIdx p]

/-- Replaces the controller of a port. -/
def State.setPort (s : State) (p : Port) (v : PortState) : State :=
  { s with ports := s.ports.set (portIdx p) v }

/-- The canister at a position. -/
def State.can (s : State) (p : Pos) : Canister := s.canisters[p]

/-- Replaces the canister at a position. -/
def State.setCan (s : State) (p : Pos) (c : Canister) : State :=
  { s with canisters := s.canisters.set p c }

/-- The pump record of a position. -/
def State.pump (s : State) (p : Pos) : Pump := s.pumps[p]

/-- Replaces the pump record of a position. -/
def State.setPump (s : State) (p : Pos) (v : Pump) : State := { s with pumps := s.pumps.set p v }

/-- A drive channel. -/
def State.chan (s : State) (d : ChanId) : Channel := s.channels[d]

/-- Replaces a drive channel. -/
def State.setChan (s : State) (d : ChanId) (c : Channel) : State :=
  { s with channels := s.channels.set d c }

/-- Makes every drive channel FREE (R102). -/
def State.freeChans (s : State) : State := { s with channels := Vector.replicate 4 Channel.free }

/-- The first channel, from D0, that meets a condition. -/
def State.findChan (s : State) (f : Channel → Bool) : Option ChanId :=
  allChans.find? fun d => f (s.chan d)

/-- The wait list of a position (R48). -/
def State.waitList (s : State) (p : Pos) : List Handle := s.waits[p]

/-- Replaces the wait list of a position. -/
def State.setWait (s : State) (p : Pos) (l : List Handle) : State := { s with waits := s.waits.set p l }

/-- The position on whose wait list a handle stands, if any (R48). -/
def State.waitPos? (s : State) (h : Handle) : Option Pos :=
  allPos.find? fun p => (s.waitList p).contains h

/-- Removes a handle from every wait list (R48). -/
def State.leaveWaits (s : State) (h : Handle) : State :=
  { s with waits := mapVec (fun l => l.filter (· != h)) s.waits }

/-- A job slot. -/
def State.slot (s : State) (i : Fin 24) : Slot := s.slots[i]

/-- Replaces a job slot. -/
def State.setSlot (s : State) (i : Fin 24) (v : Slot) : State := { s with slots := s.slots.set i v }

/-- The job a handle names: the one in its slot, if the slot's generation is the handle's (R59). -/
def State.job? (s : State) (h : Handle) : Option Job :=
  if (s.slot h.slot).gen = h.gen then (s.slot h.slot).job else none

/-- Changes the job a handle names, and nothing if it names none. -/
def State.modJob (s : State) (h : Handle) (f : Job → Job) : State :=
  match s.job? h with
  | some j => s.setSlot h.slot { gen := h.gen, job := some (f j) }
  | none => s

/-- The occupied slots with their handles, in slot order. -/
def State.jobs (s : State) : List (Handle × Job) :=
  allSlots.filterMap fun i => (s.slot i).job.map fun j => (⟨i, (s.slot i).gen⟩, j)

/-- The mixer record of a mixer. -/
def State.mixer (s : State) : MixerId → Mixer
  | .m1 => s.m1
  | .m2 => s.m2

/-- Replaces a mixer record. -/
def State.setMixer (s : State) (m : MixerId) (v : Mixer) : State :=
  match m with
  | .m1 => { s with m1 := v }
  | .m2 => { s with m2 := v }

/-- The lidder's name for a mixer as a source (R136). -/
def mixerSource : MixerId → Source
  | .m1 => .m1
  | .m2 => .m2

/-- The count of a lane (R142). -/
def Lanes.count (l : Lanes) : Lane → Nat
  | .la => l.la
  | .lb => l.lb
  | .lc => l.lc
  | .lx => l.lx

/-- Sets the count of a lane. -/
def Lanes.setCount (l : Lanes) (x : Lane) (n : Nat) : Lanes :=
  match x with
  | .la => { l with la := n }
  | .lb => { l with lb := n }
  | .lc => { l with lc := n }
  | .lx => { l with lx := n }

/-- The fixed capacities of the lanes (R142). -/
def laneCapacity : Lane → Nat
  | .la => 6
  | .lb => 6
  | .lc => 6
  | .lx => 4

/-- The lane of a job's owner (R138). Port W owns no job. -/
def ownerLane : Port → Lane
  | .a => .la
  | .b => .lb
  | .c => .lc
  | .w => .lx

/-- Puts a command on a machine-side line, or an answer on a port. -/
def State.send (s : State) (c : Sent) : State := { s with sent := s.sent ++ [c] }

/-! ### Tins on the line -/

/-- The tins on the line with their places 1 to 4: station, M1, M2, lidder (R79, R187). -/
def State.tins (s : State) : List (Nat × TinCtx) :=
  [(1, s.tin), (2, s.m1.tin), (3, s.m2.tin), (4, s.lidder.tin)].filterMap fun x => x.2.map (x.1, ·)

/-- The number of a job's tin contexts on the line. -/
def State.tinCount (s : State) (h : Handle) : Nat := (s.tins.filter fun x => x.2.handle == h).length

/-- A tin of the job is called (R89). -/
def State.called (s : State) (h : Handle) : Bool :=
  match s.call with
  | some c => c.handle == h
  | none => false

/-- A tin of the job is at the station. -/
def State.atStation (s : State) (h : Handle) : Bool :=
  match s.tin with
  | some t => t.handle == h
  | none => false

/-- Changes the station tin context. -/
def State.modTin (s : State) (f : TinCtx → TinCtx) : State := { s with tin := s.tin.map f }

/-! ### The dispense queue -/

/-- Replaces the dispense queue. The quota count returns to 0 when the front handle changes (R88). -/
def State.setQueue (s : State) (q : List Handle) : State :=
  { s with queue := q, quota := if q.head? = s.queue.head? then s.quota else 0 }

/-- A handle joins the queue at the tail, unless it stands there already (R83). -/
def State.joinQueue (s : State) (h : Handle) : State :=
  if s.queue.contains h then s else s.setQueue (s.queue ++ [h])

/-- A handle leaves the queue (R83). -/
def State.leaveQueue (s : State) (h : Handle) : State := s.setQueue (s.queue.filter (· != h))

/-! ### Time -/

/-- One millisecond less on a running timer. At 0 it waits for its expiry event. -/
def tickTimer (t : Timer) : Timer := t.map (· - 1)

/-- One millisecond passes: every running timer counts down. The call timer is paused while the line is
HALTED (R90). An inactive part counts nothing (R156). The millisecond as unit is a DESIGN CHOICE
(log entry 2). -/
def State.tick (s : State) : State :=
  s.whenActive fun s =>
    { s with
      ports := mapVec (fun p => { p with gap := tickTimer p.gap }) s.ports
      canisters := mapVec (fun c =>
        { c with settleTimer := tickTimer c.settleTimer, keepTimer := tickTimer c.keepTimer }) s.canisters
      callTimer := if s.halted then s.callTimer else tickTimer s.callTimer
      channels := mapVec (fun c => { c with dwellTimer := tickTimer c.dwellTimer }) s.channels
      dripTimer := tickTimer s.dripTimer
      scaleTimer := tickTimer s.scaleTimer
      m1 := { s.m1 with timer := tickTimer s.m1.timer }
      m2 := { s.m2 with timer := tickTimer s.m2.timer } }

end Sys2Proof.Machine
end

