-- ==== Sys2Proof/Machine/Flags.lean ====
section
/-! DEFINITION. Marks, levels and the flags of a port: the notice queue with its overflow, the lost mark and
the attention line (R165 to R169). -/

namespace Sys2Proof.Machine

/-- The fixed level of each kind of notice (R165). -/
def Notice.level : Notice → Nat
  | .guard _ => 3
  | .mixerFault _ _ => 3
  | .jobState _ _ _ => 2
  | .tinCall _ _ _ _ => 2
  | .wrongTin _ _ => 2
  | .laneFull _ => 2
  | .tinOut _ _ _ _ => 1
  | .canisterLow _ _ => 1
  | .canisterWait _ _ _ _ => 1
  | .line _ => 1
  | .start _ _ => 1

/-- The lowest level among the notices held (R167). -/
def lowestLevel (l : List Notice) : Nat := l.foldl (fun m n => min m n.level) 3

/-- The highest level among the notices held, 0 if there is none (R166). -/
def highestLevel (l : List Notice) : Nat := l.foldl (fun m n => max m n.level) 0

/-- Removes the oldest notice of a level. -/
def dropOldest (lvl : Nat) (l : List Notice) : List Notice := l.eraseP fun n => n.level == lvl

/-- A notice arrives at a port's queue. With room it is queued and the attention line is asserted (R166,
R168). At a full queue the oldest notice of the lowest level gives way to a higher one, otherwise the
new notice is dropped, and the lost mark is set (R167). -/
def PortState.arrive (ps : PortState) (n : Notice) : PortState :=
  if ps.notices.length < Config.maxNotices then
    { ps with notices := ps.notices ++ [n], attention := true }
  else if lowestLevel ps.notices < n.level then
    { ps with notices := dropOldest (lowestLevel ps.notices) ps.notices ++ [n], lost := true }
  else
    { ps with lost := true }

/-- The highest-ranked notice: the oldest of the highest level held (R166). -/
def PortState.top? (ps : PortState) : Option Notice :=
  ps.notices.find? fun n => n.level == highestLevel ps.notices

/-- Removes the highest-ranked notice, clears the lost mark and drops the attention line if the queue is
now empty (R169). -/
def PortState.fetch (ps : PortState) : PortState :=
  { ps with
    notices := dropOldest (highestLevel ps.notices) ps.notices
    lost := false
    attention := !(dropOldest (highestLevel ps.notices) ps.notices).isEmpty }

/-- Empties the notice queue, clears the lost mark and deasserts the attention line (R170, R156). -/
def PortState.clear (ps : PortState) : PortState :=
  { ps with notices := [], lost := false, attention := false }

/-- Queues a notice for one port. -/
def State.notify (s : State) (p : Port) (n : Notice) : State := s.setPort p ((s.port p).arrive n)

/-- Queues a notice for each of several ports. -/
def State.notifyEach (s : State) (ps : List Port) (n : Notice) : State :=
  ps.foldl (fun s p => s.notify p n) s

/-- Queues a notice for ports A, B, C and W (R165). -/
def State.notifyAll (s : State) (n : Notice) : State := s.notifyEach allPorts n

/-- Queues a JOB-STATE notice for the owner with the state the job now has (R70). -/
def State.notifyJob (s : State) (h : Handle) (cause : Cause) : State :=
  match s.job? h with
  | some j => s.notify j.owner (.jobState h j.state cause)
  | none => s

/-- A notice is a JOB-STATE of a job. -/
def Notice.tellsJob (h : Handle) : Notice → Bool
  | .jobState k _ _ => k == h
  | _ => false

/-- Puts a notice in the place of the newest notice that meets a condition; without one nothing changes. -/
def replaceNewest (f : Notice → Bool) (n : Notice) : List Notice → List Notice
  | [] => []
  | x :: l => if f x && !l.any f then n :: l else x :: replaceNewest f n l

/-- The JOB-STATE notices of a job that a port holds. -/
def PortState.toldOf (ps : PortState) (h : Handle) : Nat := (ps.notices.filter (Notice.tellsJob h)).length

/-- The JOB-STATE notice which an event that began in state `before` has queued for a job takes the state the job now
has (R70). If a full queue has dropped that notice (R167) there is none to change. -/
def State.restateJob (s before : State) (h : Handle) (cause : Cause) : State :=
  match s.job? h with
  | some j =>
    if (before.port j.owner).toldOf h < (s.port j.owner).toldOf h then
      s.setPort j.owner { s.port j.owner with
        notices := replaceNewest (Notice.tellsJob h) (.jobState h j.state cause) (s.port j.owner).notices }
    else s
  | none => s

/-- The L mark of a job's tins: some component's lot-break mark is set (R65). -/
def Job.lotMark (j : Job) : Bool := j.comps.any (·.lotBreak)

/-- The S mark of a job's tins: some component's substep mark is set (R14, R65). -/
def Job.substepMark (j : Job) : Bool := j.comps.any (·.substep)

/-- The marks of a judged tin: W or N as the outcome gives, with L and S of the job (R125). -/
def Job.marks (j : Job) (w n : Bool) : Marks := { w := w, n := n, l := j.lotMark, s := j.substepMark }

/-- Some weigh mark is set: the tin was judged with W or N. -/
def Marks.weighed (m : Marks) : Bool := m.w || m.n

end Sys2Proof.Machine
end

