-- ==== Sys2Proof/Machine/Formula.lean ====
section
/-! DEFINITION. The formula arithmetic of Chapter 1: exact whole numbers, two roundings, no state. -/

namespace Sys2Proof.Machine

/-- A decimal digit character. -/
def isDigit (c : Byte) : Bool := decide (0x30 ≤ c.toNat) && decide (c.toNat ≤ 0x39)

/-- The decimal value of a run of digit characters. -/
def digitsValue (l : Text) : Nat := l.foldl (fun v c => 10 * v + (c.toNat - 0x30)) 0

/-- The value d of an amount field: its characters up to the first space, at least one and all digits,
followed by spaces to the end of the field (R2). -/
def parseAmount (f : Text) : Option Nat :=
  let d := f.takeWhile (· != 0x20)
  let tail := f.dropWhile (· != 0x20)
  if !d.isEmpty && d.all isDigit && tail.all (· == 0x20) then some (digitsValue d) else none

/-- The normalised amount a, in microlitres per Vref mL (R3). -/
def normalise (d scale : Nat) : Nat := if scale ≤ 3 then d * 10 ^ (3 - scale) else (d + 5) / 10

/-- The exact per-tin target E, in nL × mL (R6). -/
def exactTarget (a vtin : Nat) : Nat := a * 1000 * vtin

/-- The step divisor M (R7). -/
def stepDivisor (qSnap vref : Nat) : Nat := qSnap * vref

/-- The cumulative step count S(k) for target E and divisor M: k × E / M rounded half up (R8). -/
def cumSteps (k e m : Nat) : Nat := (2 * k * e + m) / (2 * m)

/-- S(k) of a component of a job (R8). -/
def Job.cumAt (j : Job) (c : Component) (k : Nat) : Nat :=
  cumSteps k c.exact (stepDivisor c.qSnap j.vref)

/-- The batch need of a component, S(n) steps (R10). -/
def Job.need (j : Job) (c : Component) : Nat := j.cumAt c j.n

/-- The step counts of the tin to be counted next, S(c + 1) − S(c) per component in formula order (R9). -/
def Job.nextSteps (j : Job) : List Nat :=
  j.comps.map fun c => j.cumAt c (j.counted + 1) - j.cumAt c j.counted

/-- A component is a substep component: its amount is below the resolution (R5), or its target is below one
step (R14). `d` is its digit value. -/
def isSubstep (d a e m : Nat) : Bool := (decide (0 < d) && decide (a = 0)) || (decide (0 < e) && decide (e < m))

/-- The sum of the targets fits the class headroom (R13). -/
def fitsHeadroom (total headroom vref : Nat) : Bool := decide (total ≤ headroom * 1000000 * vref)

/-- The per-tin colourant total of an OVERFILL answer, rounded half up to nL (R13). -/
def overfillTotal (total vref : Nat) : Nat := (2 * total + vref) / (2 * vref)

/-- Counting a tin advances every component's S(c) to S(c + 1) and c by 1 (R15). -/
def Job.advance (j : Job) : Job :=
  { j with comps := j.comps.map fun c => { c with cum := j.cumAt c (j.counted + 1) }, counted := j.counted + 1 }

/-- Σ over components of steps × current q × density, in nL × mg per mL (R17). -/
def massSum (s : State) : List Nat → List Component → Nat
  | k :: ks, c :: cs => k * (s.can c.pos).kept.q * (s.can c.pos).kept.density + massSum s ks cs
  | _, _ => 0

/-- The expected mass of a tin, in mg, rounded half up once (R17). -/
def expectedMass (s : State) (steps : List Nat) (comps : List Component) : Nat :=
  (2 * massSum s steps comps + 1000000) / 2000000

end Sys2Proof.Machine
end

