-- ==== Sys2Proof/Machine/Stock.lean ====
section
/-! DEFINITION. The canister table's own operations: volumes, the settings store's copies, the LOW latch, the
settle and keep-stir timers, recirculation and the stock debit (R21 to R42), and the reserved and free
volumes read from the job table (R44). -/

namespace Sys2Proof.Machine

/-! ### Volumes -/

/-- Usable volume: level less heel (R22). -/
def CanRecord.usable (c : CanRecord) : Nat := c.level - c.heel

/-- The reserved steps a job holds on a position (R43). -/
def Job.reservedOn (j : Job) (p : Pos) : Nat :=
  (j.comps.map fun c => if c.pos = p then c.reserved else 0).sum

/-- The reserved steps of a position over all jobs (R44). -/
def State.reservedSteps (s : State) (p : Pos) : Nat := (s.jobs.map fun x => x.2.reservedOn p).sum

/-- The reserved volume of a position, at its current q (R44). -/
def State.reservedVol (s : State) (p : Pos) : Nat := s.reservedSteps p * (s.can p).kept.q

/-- The free volume of a position: usable less reserved volume (R44). By R45 nothing is cut off at 0. -/
def State.freeVol (s : State) (p : Pos) : Nat := (s.can p).kept.usable - s.reservedVol p

/-- A count of steps on a position as a volume at its current q (R44). -/
def State.volume (s : State) (p : Pos) (steps : Nat) : Nat := steps * (s.can p).kept.q

/-- The position of the installed canister that carries a colourant code (R1). -/
def State.posOfCode (s : State) (code : Text) : Option Pos :=
  allPos.find? fun p => (s.can p).kept.installed && (s.can p).kept.code == code

/-- Some job in a state other than DONE or CANCELLED names the canister (R34). -/
def State.named (s : State) (p : Pos) : Bool :=
  s.jobs.any fun x =>
    x.2.state != .done && x.2.state != .cancelled && x.2.comps.any fun c => c.pos == p

/-! ### Records and their stored copies -/

/-- Writes a position's stored copy (R41, R155). -/
def State.storeCan (s : State) (p : Pos) : State :=
  { s with store := { s.store with canisters := s.store.canisters.set p (some ⟨(s.can p).kept, true⟩) } }

/-- The next change count: after 65,535 comes 0 (R23). -/
def nextCount (n : Nat) : Nat := (n + 1) % Config.countModulus

/-- The full settle time of a canister, in ms (R27). -/
def CanRecord.settleMs (c : CanRecord) : Nat := c.settleLimit * 60000

/-- The full keep-stir time of a canister, in ms (R28). -/
def CanRecord.keepStirMs (c : CanRecord) : Nat := c.keepStir * 1000

/-- Enters READY: stirrer off, settle timer from full, keep-stir timer stopped (R24, R26, R28). -/
def Canister.toReady (c : Canister) : Canister :=
  { c with state := .ready, stirrer := false, settleTimer := some c.kept.settleMs, keepTimer := none }

/-- Enters STIRRING: stirrer on, keep-stir timer from full, settle timer stopped (R27). -/
def Canister.toStirring (c : Canister) : Canister :=
  { c with state := .stirring, stirrer := true, settleTimer := none, keepTimer := some c.kept.keepStirMs }

/-- Enters SETTLED: stirrer off, both timers stopped (R24, R27). -/
def Canister.toSettled (c : Canister) : Canister :=
  { c with state := .settled, stirrer := false, settleTimer := none, keepTimer := none }

/-- Enters RECIRC: demand cleared, stirrer on (R25). -/
def Canister.toRecirc (c : Canister) : Canister :=
  { c with state := .recirc, demand := false, stirrer := true, settleTimer := none, keepTimer := none }

/-- Enters LOCKED: both timers stopped, stirrer off, demand cleared (R36). -/
def Canister.toLocked (c : Canister) : Canister :=
  { c with state := .locked, demand := false, stirrer := false, settleTimer := none, keepTimer := none }

/-! ### The LOW latch -/

/-- Examines the latch after a change that lowers usable volume: armed and at or below the low mark, it
queues CANISTER-LOW for port W and disarms (R31). -/
def State.examineLow (s : State) (p : Pos) : State :=
  let c := s.can p
  if c.latch && decide (c.kept.usable ≤ c.kept.lowMark) then
    (s.setCan p { c with latch := false }).notify .w (.canisterLow p c.kept.usable)
  else s

/-- Re-arms the latch if usable volume is above the low mark, and otherwise keeps it (R31, R37). -/
def Canister.rearm (c : Canister) : Canister :=
  { c with latch := c.latch || decide (c.kept.lowMark < c.kept.usable) }

/-! ### Recirculation -/

/-- Sends RECIRC if the demand is set, the canister SETTLED, the pump IDLE and the line not HALTED (R25). -/
def State.examineRecirc (s : State) (p : Pos) : State :=
  let c := s.can p
  if c.demand && c.state == .settled && (s.pump p).state == .idle && !s.halted then
    ((s.setCan p c.toRecirc).setPump p { s.pump p with state := .recirc }).send
      (.recirc p c.kept.recircTime)
  else s

/-- A request for recirculation: sets the demand of a SETTLED canister and examines it; any other state
changes nothing (R25). -/
def State.askRecirc (s : State) (p : Pos) : State :=
  let c := s.can p
  if c.state == .settled then (s.setCan p { c with demand := true }).examineRecirc p else s

/-! ### Stock debit -/

/-- The state and timers after a debit of one or more steps: READY restarts its settle timer, STIRRING ends
its keep-stir run, any other state is unchanged (R30). -/
def Canister.afterDebit (c : Canister) : Canister :=
  match c.state with
  | .ready => { c with settleTimer := some c.kept.settleMs }
  | .stirring => c.toReady
  | _ => c

/-- The debit of a burst report of `k` steps at the current q: level, change count, stored copy, LOW latch,
state and timers. A report of 0 steps changes nothing (R30). -/
def State.debit (s : State) (p : Pos) (k : Nat) : State :=
  if k = 0 then s
  else
    let c := s.can p
    let kept := { c.kept with level := c.kept.level - k * c.kept.q, count := nextCount c.kept.count }
    let s1 := (((s.setCan p { c with kept := kept }).storeCan p).examineLow p)
    s1.setCan p (s1.can p).afterDebit

/-! ### Guard opening -/

/-- What a canister does at a guard opening, by its state (R29). -/
def Canister.atGuard (c : Canister) : Canister :=
  match c.state with
  | .recirc => { c.toSettled with demand := true }
  | .stirring => c.toReady
  | _ => c

end Sys2Proof.Machine
end

