-- ==== Sys2Proof/Machine/LineCtl.lean ====
section
/-! DEFINITION. The line controller: changes of line mode and the park condition (R146 to R149). -/

namespace Sys2Proof.Machine

/-- A change of line mode other than into HALTED, with its LINE notice for all ports (R146). Outside HALTED
there is no guard flag. -/
def State.setMode (s : State) (m : LineMode) : State :=
  ({ s with line := { s.line with mode := m, guard := none } }).notifyAll (.line m)

/-- The park condition: no call, no tin context anywhere, and every handle in the queue belongs to a
SUSPENDED job (R148). -/
def State.parkCondition (s : State) : Bool :=
  s.call.isNone && s.tins.isEmpty &&
    s.queue.all fun h =>
      match s.job? h with
      | some j => j.state == .suspended
      | none => true

/-- In PARKING the condition is examined, and the line becomes PARKED when it holds (R148). -/
def State.examinePark (s : State) : State :=
  if s.line.mode == .parking && s.parkCondition then s.setMode .parked else s

/-- A job has become READY by admission, grant or RESUME: a PARKING or PARKED line becomes RUN (R149). -/
def State.wake (s : State) : State :=
  if s.line.mode == .parking || s.line.mode == .parked then s.setMode .run else s

/-- The same report, made only if a job did become READY. -/
def State.wakeIf (s : State) (b : Bool) : State := if b then s.wake else s

end Sys2Proof.Machine
end

