-- ==== Sys2Proof/Machine/Reserve.lean ====
section
/-! DEFINITION. The reservation unit and the job transitions bound to it: shortage tests, admission, the
wait-list walk, grants, burst reports, failed attempts, re-reservation, suspension and release (R43 to
R57, R66 to R68). -/

namespace Sys2Proof.Machine

/-! ### Sufficiency -/

/-- The outstanding need of each component of a waiting job: its pending re-reservation if it is a returned
job, else its full need S(n) (R50). -/
def Job.outstanding (j : Job) : List Nat :=
  match j.pendingRe with
  | some l => l
  | none => j.comps.map j.need

/-- A need of `k` steps on a position finds its free volume too small. A zero need never does (R46, R50). -/
def State.shortAt (s : State) (p : Pos) (k : Nat) : Bool :=
  decide (0 < k) && decide (s.freeVol p < s.volume p k)

/-- The first short canister in component order, with the need on it in steps. -/
def State.firstShort (s : State) : List Nat → List Component → Option (Pos × Nat)
  | k :: ks, c :: cs => if s.shortAt c.pos k then some (c.pos, k) else s.firstShort ks cs
  | _, _ => none

/-- The first canister short for a new job: one with nonzero need whose wait list is not empty, or whose free
volume is too small (R46). -/
def State.admissionShort (s : State) : List Nat → List Component → Option (Pos × Nat)
  | k :: ks, c :: cs =>
    if decide (0 < k) && !(s.waitList c.pos).isEmpty || s.shortAt c.pos k then some (c.pos, k)
    else s.admissionShort ks cs
  | _, _ => none

/-- The need of a job's component on one position. -/
def needOn (p : Pos) : List Nat → List Component → Nat
  | k :: ks, c :: cs => if c.pos = p then k else needOn p ks cs
  | _, _ => 0

/-- Adds step counts to the reserved steps of components. -/
def addReserved : List Nat → List Component → List Component
  | k :: ks, c :: cs => { c with reserved := c.reserved + k } :: addReserved ks cs
  | _, cs => cs

/-- CANISTER-WAIT for port W: the position, the job, its need there in steps and in nL at the current q
(R57). -/
def State.notifyWait (s : State) (p : Pos) (h : Handle) (k : Nat) : State :=
  s.notify .w (.canisterWait p h k (s.volume p k))

/-! ### The wait-list walk -/

/-- The state a granted or resumed job takes: ACTIVE while a tin of it is called or on the line, else READY
(R51, R66). -/
def State.liveState (s : State) (h : Handle) : JobState :=
  if s.called h || decide (0 < s.tinCount h) then .active else .ready

/-- A grant: the reserved steps rise to the target, the pending re-reservation is cleared, the job leaves the
list and joins the tail of the queue, and its owner gets JOB-STATE with cause STOCK-GRANTED (R50, R51). -/
def State.grant (s : State) (p : Pos) (h : Handle) : State :=
  let st := s.liveState h
  let s1 := s.modJob h fun j =>
    { j with comps := addReserved j.outstanding j.comps, pendingRe := none, state := st }
  ((s1.setWait p ((s1.waitList p).filter (· != h))).joinQueue h).notifyJob h .stockGranted

/-- A waiting job moves from list `p` to list `y`: a job placed at SUBMIT to the tail, a returned job to the
head; CANISTER-WAIT for `y` goes to port W (R50). -/
def State.moveWait (s : State) (p y : Pos) (h : Handle) (returned : Bool) (k : Nat) : State :=
  let s1 := s.setWait p ((s.waitList p).filter (· != h))
  let l := s1.waitList y
  (s1.setWait y (if returned then h :: l else l ++ [h])).notifyWait y h k

/-- The walk over the handles of list `p`, head first: grant, stop or move (R50). The flag says whether a
grant has made a job READY. -/
def State.walkFrom (p : Pos) : List Handle → Bool → State → State × Bool
  | [], woke, s => (s, woke)
  | h :: rest, woke, s =>
    match s.job? h with
    | none => (s, woke)
    | some j =>
      if s.shortAt p (needOn p j.outstanding j.comps) then (s, woke)
      else
        match s.firstShort j.outstanding j.comps with
        | none => State.walkFrom p rest (woke || s.liveState h == .ready) (s.grant p h)
        | some (y, k) => State.walkFrom p rest woke (s.moveWait p y h j.pendingRe.isSome k)

/-- A walk on a canister (R49). A job it makes READY wakes a PARKING or PARKED line, and that LINE notice
follows the walk's own (R149; of several walks each is followed by its own, DEDUCED, log entry 19: unsafe). -/
def State.walk (s : State) (p : Pos) : State :=
  (State.walkFrom p (s.waitList p) false s).1.wakeIf (State.walkFrom p (s.waitList p) false s).2

/-- Walks on several canisters, one after another (R49). -/
def State.walkAll (s : State) (ps : List Pos) : State := ps.foldl State.walk s

/-! ### Burst reports -/

/-- A job that is CANCELLING or CANCELLED. -/
def Job.isCancelled (j : Job) : Bool := j.state == .cancelling || j.state == .cancelled

/-- Sets the reserved steps of component `i`. -/
def Job.setReserved (j : Job) (i k : Nat) : Job :=
  { j with comps := j.comps.modify i fun c => { c with reserved := k } }

/-- The reserved steps of component `i`. -/
def Job.reservedAt (j : Job) (i : Nat) : Nat := (j.comps[i]?.map (·.reserved)).getD 0

/-- A burst report of `k` steps for component `i` of the station tin's job: the reserved steps fall by `k`
(R52). For a cancelled job the rest of the kept count is released too, and a release starts a walk on
the report's canister (R55). -/
def State.reserveReport (s : State) (h : Handle) (i : Nat) (p : Pos) (k : Nat) : State :=
  match s.job? h with
  | none => s
  | some j =>
    if j.isCancelled then
      let s1 := s.modJob h fun j => j.setReserved i 0
      if 0 < j.reservedAt i - k then s1.walk p else s1
    else s.modJob h fun j => j.setReserved i (j.reservedAt i - k)

/-! ### Failed attempts, suspension, re-reservation -/

/-- Records a failed attempt: the steps it dispensed become the pending re-reservation (none if all are 0),
the entry's attempts rise by 1 holding at 99, tins started falls by 1, and the job joins the queue if it
had left it. A cancelled job records none of this (R53, R68). -/
def State.failAttempt (s : State) (t : TinCtx) : State :=
  match s.job? t.handle with
  | none => s
  | some j =>
    if j.isCancelled then s
    else
      (s.modJob t.handle fun j =>
        { j with
          pendingRe := if t.dispensed.all (· == 0) then none else some t.dispensed
          started := j.started - 1
          results := j.results.modify (t.index - 1) fun e =>
            { e with attempts := min Config.maxAttempts (e.attempts + 1) } }).joinQueue t.handle

/-- A job becomes SUSPENDED with a cause: JOB-STATE to its owner, and in PARKING the park condition is
examined (R67, R148). -/
def State.suspend (s : State) (h : Handle) (cause : Cause) : State :=
  ((s.modJob h fun j => { j with state := .suspended, cause := some cause }).notifyJob h cause).examinePark

/-- Tries the re-reservation of a returned job: taken, or the job becomes WAITING-STOCK at the head of the
first short canister's list, out of the dispense queue, with CANISTER-WAIT for port W (R54). The park condition
is examined here, after CANISTER-WAIT and before the job's JOB-STATE (R148): LINE (PARKED) follows CANISTER-WAIT on
port W and precedes JOB-STATE on the owner's (both orders DEDUCED, log entry 42: unsafe). The second part is that
canister, if any. -/
def State.retryReserve (s : State) (h : Handle) : State × Option Pos :=
  match s.job? h with
  | none => (s, none)
  | some j =>
    match j.pendingRe with
    | none => (s, none)
    | some l =>
      match s.firstShort l j.comps with
      | none =>
        (s.modJob h fun j => { j with comps := addReserved l j.comps, pendingRe := none }, none)
      | some (y, k) =>
        let s1 := (s.modJob h fun j => { j with state := .waitingStock }).leaveQueue h
        (((s1.setWait y (h :: s1.waitList y)).notifyWait y h k).examinePark, some y)

/-- A spoiled attempt fails and its re-reservation is tried at once; a job that must wait gets JOB-STATE with
cause RETURNED-WAIT (R53, R54, R68; after a LINE (PARKED) of this event, log entry 42). A cancelled job records no
re-reservation. -/
def State.spoilAttempt (s : State) (t : TinCtx) : State :=
  let r := (s.failAttempt t).retryReserve t.handle
  match r.2 with
  | some _ => r.1.notifyJob t.handle .returnedWait
  | none => r.1

/-! ### Release at CANCEL -/

/-- The burst in progress for component `i` of a job's station tin, 0 if there is none (R55). -/
def State.burstOf (s : State) (h : Handle) (i : Nat) : Nat :=
  if s.atStation h then
    match s.findChan fun c => c.state == .burst && c.comp == i with
    | some d => (s.chan d).burst.getD 0
    | none => 0
  else 0

/-- The components after a release: each keeps the step count of its burst in progress and nothing else.
`i` is the number of the first component given. -/
def State.keepBursts (s : State) (h : Handle) : Nat → List Component → List Component
  | _, [] => []
  | i, c :: cs => { c with reserved := min c.reserved (s.burstOf h i) } :: s.keepBursts h (i + 1) cs

/-- The positions, in component order, whose reserved steps a release lowers or from whose list the job is
removed: the walks of a CANCEL run on them (R49, R55). -/
def State.releasedPositions (s : State) (h : Handle) (listed : Option Pos) : Nat → List Component → List Pos
  | _, [] => []
  | i, c :: cs =>
    let rest := s.releasedPositions h listed (i + 1) cs
    if decide (min c.reserved (s.burstOf h i) < c.reserved) || listed == some c.pos then c.pos :: rest
    else rest

/-- Releases a cancelled job's claim: it leaves every wait list, keeps the counts of bursts in progress and
has no pending re-reservation (R55). -/
def State.releaseClaim (s : State) (h : Handle) : State :=
  (s.leaveWaits h).modJob h fun j => { j with comps := s.keepBursts h 0 j.comps, pendingRe := none }

/-! ### READY and ACTIVE -/

/-- ACTIVE becomes READY when the last of the job's calls and tin contexts has ended and c is below n
(R66). -/
def State.calmJob (s : State) (h : Handle) : State :=
  match s.job? h with
  | none => s
  | some j =>
    if j.state == .active && !s.called h && s.tinCount h == 0 && decide (j.counted < j.n) then
      s.modJob h fun j => { j with state := .ready }
    else s

/-- A job's tins left to start: n less tins started, less 1 while a tin of it is called (R84). -/
def State.tinsLeft (s : State) (h : Handle) (j : Job) : Nat :=
  j.n - j.started - (if s.called h then 1 else 0)

end Sys2Proof.Machine
end

