-- ==== Sys2Proof/Machine/Sched.lean ====
section
/-! DEFINITION. The dispense scheduler: candidates, the lot check, the call, quota and rotation, and the
selection that ends an event (R83 to R92). -/

namespace Sys2Proof.Machine

/-- No canister with a nonzero step count for the tin is LOCKED (R86). -/
def State.noneLocked (s : State) : List Nat → List Component → Bool
  | k :: ks, c :: cs => (k == 0 || (s.can c.pos).state != .locked) && s.noneLocked ks cs
  | _, _ => true

/-- A job is a candidate (R86). -/
def State.candidate (s : State) (h : Handle) (j : Job) : Bool :=
  j.state != .suspended && decide (1 ≤ s.tinsLeft h j) && !s.called h && !s.atStation h &&
    s.noneLocked j.nextSteps j.comps

/-- A component's lot snapshot differs from its canister's lot id (R38). -/
def State.lotDiffers (s : State) (c : Component) : Bool := c.lotSnap != (s.can c.pos).kept.lot

/-- The component rewritten for a lot break: snapshot from the canister, lot-break mark set (R87, R77). -/
def State.markLot (s : State) (c : Component) : Component :=
  if s.lotDiffers c then { c with lotSnap := (s.can c.pos).kept.lot, lotBreak := true } else c

/-- A component the lot check finds differing: its batch need is not 0 and its lot differs (R87). -/
def State.lotBroken (s : State) (j : Job) (c : Component) : Bool := decide (0 < j.need c) && s.lotDiffers c

/-- The tin a call names: the lowest-index PENDING tin (R86), which is tin c + 1 (R9). -/
def Job.nextTin (j : Job) : Nat :=
  match j.results.find? fun e => e.outcome == .pending with
  | some e => e.index
  | none => j.counted + 1

/-- The quota rule after a call for `h` (R88): a job with no tin left leaves the queue; otherwise the front
job's count rises, and at the quota it goes to the tail. -/
def State.applyQuota (s : State) (h : Handle) : State :=
  let left := match s.job? h with
    | some j => s.tinsLeft h j
    | none => 0
  if left = 0 then s.leaveQueue h
  else if s.queue.head? = some h then
    if s.line.settings.quota ≤ s.quota + 1 then
      { s with queue := s.queue.filter (· != h) ++ [h], quota := 0 }
    else { s with quota := s.quota + 1 }
  else s

/-- Asks for recirculation of each canister with a nonzero step count (R89), in formula order (DEDUCED, log entry 40:
unsafe). -/
def State.askAll (s : State) : List Nat → List Component → State
  | k :: ks, c :: cs => (if k = 0 then s else s.askRecirc c.pos).askAll ks cs
  | _, _ => s

/-- Calls the next tin of a job (R89): the call record and timer, TIN-CALL to the owner, recirculation of the
canisters it needs, READY to ACTIVE, and the quota rule. -/
def State.makeCall (s : State) (h : Handle) (j : Job) : State :=
  let s1 := { s with
    call := some { handle := h, index := j.nextTin, cls := j.cls, base := j.base }
    station := .calling
    callTimer := some (s.line.settings.callTimeout * 1000) }
  let s2 := (s1.notify j.owner (.tinCall h j.nextTin j.cls j.base)).askAll j.nextSteps j.comps
  let s3 := s2.modJob h fun j => if j.state == .ready then { j with state := .active } else j
  s3.applyQuota h

/-- The job a handle names was WAITING-STOCK or SUSPENDED in state `before` and is neither now: the event between the
two has granted or resumed it, with a JOB-STATE notice (R51, R77). -/
def State.releasedSince (s before : State) (h : Handle) : Bool :=
  match before.job? h, s.job? h with
  | some j, some k =>
    (j.state == .waitingStock || j.state == .suspended) && !(k.state == .waitingStock || k.state == .suspended)
  | _, _ => false

/-- The lot check suspends a job (R67, R87), and in PARKING the park condition is examined (R148), after the JOB-STATE
(DEDUCED, log entry 44: unsafe). The owner gets
JOB-STATE; if this event, which began in state `before`, granted or resumed the job, its one notice takes the state
the event leaves (R70; in its place in the queue, DEDUCED, log entry 38: unsafe). -/
def State.lotStop (s before : State) (h : Handle) : State :=
  let s1 := s.modJob h fun j => { j with state := .suspended, cause := some .lotStop }
  (if s.releasedSince before h then s1.restateJob before h .lotStop else s1.notifyJob h .lotStop).examinePark

/-- The walk of a selection over the queue's handles (R86, R87): the first candidate whose lot check does not
suspend it is called, and the walk ends. `before` is the state in which the event began. -/
def State.selectFrom (before : State) : List Handle → State → State
  | [], s => s
  | h :: rest, s =>
    match s.job? h with
    | none => State.selectFrom before rest s
    | some j =>
      if s.candidate h j then
        if j.comps.any (s.lotBroken j) then
          match j.dLotBreak with
          | .mark =>
            let j2 := { j with comps := j.comps.map fun c => if s.lotBroken j c then s.markLot c else c }
            (s.modJob h fun _ => j2).makeCall h j2
          | .stop => State.selectFrom before rest (s.lotStop before h)
        else s.makeCall h j
      else State.selectFrom before rest s

/-- The selection that ends an event which began in state `before`, made when the station is IDLE with no call and no
tin and the line is RUN or PARKING (R85). -/
def State.selectAfter (s before : State) : State :=
  if s.station == .idle && s.call.isNone && s.tin.isNone &&
      (s.line.mode == .run || s.line.mode == .parking) then
    State.selectFrom before s.queue s
  else s

/-- The selection that ends an event in which no job was granted or resumed (R85). -/
def State.select (s : State) : State := s.selectAfter s

/-- The scheduler withdraws the call: record cleared, timer stopped, station IDLE (R91, R92). -/
def State.withdrawCall (s : State) : State :=
  { s with call := none, callTimer := none, station := .idle }

/-- Moves a handle to the tail of the queue, or appends it if it had left; the quota count returns to 0 if it
stood at the front (R91). -/
def State.rotate (s : State) (h : Handle) : State :=
  { s with
    queue := s.queue.filter (· != h) ++ [h]
    quota := if s.queue.head? = some h ∨ s.queue = [] then 0 else s.quota }

end Sys2Proof.Machine
end

