-- ==== Sys2Proof/Machine/Lids.lean ====
section
/-! DEFINITION. The mixers, the lidder and the lanes: transfer, mixing, claims, the take, labels and placement
(R129 to R144), and the station's handing on of its tin (R112). -/

namespace Sys2Proof.Machine

/-! ### Leaving the station -/

/-- The station's tin has left: the station returns to IDLE, which is reported to the line controller (R112,
R148). -/
def State.stationLeaves (s : State) : State := ({ s with station := .idle, tin := none }).examinePark

/-! ### Transfer to a mixer -/

/-- A mixer is LOADING for this tin (R130). -/
def Mixer.loadingFor (m : Mixer) (t : TinCtx) : Bool :=
  m.state == .loading && m.expected == some (t.handle, t.index)

/-- Sends TRANSFER to a mixer, which becomes LOADING with the tin as its expected tin (R130). -/
def State.startTransfer (s : State) (m : MixerId) (t : TinCtx) : State :=
  (s.setMixer m { s.mixer m with state := .loading, expected := some (t.handle, t.index) }).send (.transfer m)

/-- Examines the transfer conditions: a NORMAL tin in HANDOFF, no mixer LOADING for it, an IDLE mixer, the
line not HALTED. M1 is chosen if it is IDLE, M2 otherwise (R130). -/
def State.examineTransfer (s : State) : State :=
  match s.tin with
  | none => s
  | some t =>
    if s.station == .handoff && t.stage == .mixWait && !s.m1.loadingFor t && !s.m2.loadingFor t && !s.halted
    then
      if s.m1.state == .idle then s.startTransfer .m1 t
      else if s.m2.state == .idle then s.startTransfer .m2 t
      else s
    else s

/-- The mix time of the class a job names, in ms (R131). The class is held while the job has a tin on the
line (R81); with no such class, which no run meets, the time is 0 (DESIGN CHOICE, log entry 26: unsafe). -/
def State.mixMs (s : State) (h : Handle) : Nat :=
  match s.job? h with
  | some j =>
    match s.classes.find? fun c => c.code == j.cls with
    | some c => c.mixTime * 1000
    | none => 0
  | none => 0

/-- The mix timer started from full, or held stopped while the line is HALTED (R131, R134). -/
def State.mixTimer (s : State) (h : Handle) : Timer := if s.halted then none else some (s.mixMs h)

/-! ### The lidder -/

/-- The lot-change codes of a job, in formula order (R139). -/
def Job.lotCodes (j : Job) : List Text := (j.comps.filter (·.lotBreak)).map (·.code)

/-- The marks a label carries: the context's, or for a tin that reaches the lidder unjudged only L and S of
the job (R139). A REJECT tin with no weigh mark is an unjudged one (DEDUCED, log entry 28: safe). -/
def labelMarks (j : Job) (t : TinCtx) : Marks :=
  if t.route == .reject && !t.marks.weighed then j.marks false false else t.marks

/-- The label record of a tin, from its context and its job record (R139). -/
def buildLabel (j : Job) (t : TinCtx) : Label :=
  { orderRef := j.orderRef, colour := j.colour, handle := t.handle, index := t.index, count := j.n
    cls := j.cls, base := j.base, lotCodes := j.lotCodes, marks := labelMarks j t
    expected := t.expected, net := t.net, word := t.word }

/-- The destination lane of a tin (R138). -/
def destLane (j : Job) (t : TinCtx) : Lane :=
  match t.route with
  | .normal => ownerLane j.owner
  | .reject => .lx

/-- The tin of a source (R136). -/
def State.sourceTin (s : State) : Source → Option TinCtx
  | .m1 => s.m1.tin
  | .m2 => s.m2.tin
  | .station => s.tin

/-- Releases a source whose tin the lidder has taken: a mixer becomes IDLE and the station examines its
transfer conditions; the station returns to IDLE (R138). -/
def State.releaseSource (s : State) : Source → State
  | .m1 => (s.setMixer .m1 Mixer.idle).examineTransfer
  | .m2 => (s.setMixer .m2 Mixer.idle).examineTransfer
  | .station => s.stationLeaves

/-- The take: an IDLE lidder on a line that is not HALTED takes the tin of the head claimant, builds its
label, sends LID-START and releases the source (R138). -/
def State.examineLidder (s : State) : State :=
  if s.lidder.state == .idle && !s.halted then
    match s.lidder.claims with
    | [] => s
    | src :: rest =>
      match s.sourceTin src with
      | none => s
      | some t =>
        match s.job? t.handle with
        | none => s
        | some j =>
          (({ s with
              lidder :=
                { state := .lidding, tin := some { t with stage := .lidding }, label := some (buildLabel j t)
                  dest := some (destLane j t), cmdOut := true, claims := rest } }).send
            (.lidStart (buildLabel j t))).releaseSource src
  else s

/-- A source becomes ready for the lidder: it joins the tail of the claim list, and the lidder examines its
take (R137, R138). -/
def State.joinClaim (s : State) (src : Source) : State :=
  let l := s.lidder.claims
  ({ s with lidder := { s.lidder with claims := if l.contains src then l else l ++ [src] } }).examineLidder

/-- The station enters HANDOFF with a counted tin, which waits for a mixer (R112, R130). -/
def State.handoffNormal (s : State) : State :=
  (({ s with station := .handoff }).modTin fun t => { t with stage := .mixWait }).examineTransfer

/-- The station enters HANDOFF with a REJECT tin, which waits for the lidder (R112, R137). -/
def State.handoffReject (s : State) : State :=
  (({ s with station := .handoff }).modTin fun t => { t with stage := .lidWait }).joinClaim .station

/-! ### Lanes -/

/-- A lane has room (R142). -/
def State.laneRoom (s : State) (x : Lane) : Bool := decide (s.lanes.count x < laneCapacity x)

/-- A NORMAL tin reaches its owner's lane: the delivered count rises, its entry becomes DELIVERED with the
lane, and TIN-OUT with the entry's marks goes to the owner (R143). -/
def State.deliver (s : State) (t : TinCtx) (x : Lane) : State :=
  match s.job? t.handle with
  | none => s
  | some j =>
    (s.modJob t.handle fun j =>
      { j with
        delivered := j.delivered + 1
        results := j.results.modify (t.index - 1) fun e =>
          { e with outcome := .delivered, lane := some x } }).notify j.owner
      (.tinOut t.handle t.index x (((j.results[t.index - 1]?).bind (·.marks)).getD Marks.none))

/-- The transition the end of a tin context brings: DONE, CANCELLED or READY (R143, R66, R69, R75). -/
def State.contextEnded (s : State) (h : Handle) : State :=
  match s.job? h with
  | none => s
  | some j =>
    if j.state == .active && j.counted == j.n && j.delivered == j.n then
      (s.modJob h fun j => { j with state := .done }).notifyJob h .done
    else if j.state == .cancelling && s.tinCount h == 0 then
      (s.modJob h fun j => { j with state := .cancelled }).notifyJob h .cancelled
    else s.calmJob h

/-- Places the lidder's tin on its destination lane: the count rises, the context ends, a NORMAL tin is
delivered, the job and the line controller take the end of the context, and the lidder, IDLE again,
examines its claim list (R143). -/
def State.placeTin (s : State) : State :=
  match s.lidder.tin, s.lidder.dest with
  | some t, some x =>
    let s1 := { s with
      lanes := s.lanes.setCount x (s.lanes.count x + 1)
      lidder := { s.lidder with state := .idle, tin := none, label := none, dest := none, cmdOut := false } }
    let s2 := match t.route with
      | .normal => s1.deliver t x
      | .reject => s1
    ((s2.contextEnded t.handle).examinePark).examineLidder
  | _, _ => s

/-- In LANE-WAIT the lidder places its tin when its lane has room and the line is not HALTED (R140). -/
def State.examineLane (s : State) : State :=
  match s.lidder.dest with
  | some x => if s.lidder.state == .laneWait && !s.halted && s.laneRoom x then s.placeTin else s
  | none => s

/-- The ports a LANE-FULL notice goes to (R144). -/
def lanePorts : Lane → List Port
  | .la => [.a]
  | .lb => [.b]
  | .lc => [.c]
  | .lx => [.a, .b, .c]

/-! ### Guard stop and resumption -/

/-- What a mixer does at a guard opening: its mix timer stops (R135). -/
def Mixer.atGuard (m : Mixer) : Mixer := if m.state == .mixing then { m with timer := none } else m

/-- What the lidder does at a guard opening: an outstanding lid command is cancelled (R141). -/
def Lidder.atGuard (l : Lidder) : Lidder :=
  if l.state == .lidding then { l with cmdOut := false } else l

/-- When the line leaves HALTED, a MIXING mixer starts its mix timer from full (R135). -/
def State.remix (s : State) (m : MixerId) : State :=
  match (s.mixer m).state, (s.mixer m).tin with
  | .mixing, some t => s.setMixer m { s.mixer m with timer := some (s.mixMs t.handle) }
  | _, _ => s

/-- When the line leaves HALTED, the lidder reissues LID-START with the same label, places a waiting tin if
its lane has room, or takes the head of the claim list (R141). -/
def State.relid (s : State) : State :=
  match s.lidder.state with
  | .lidding =>
    match s.lidder.label with
    | some lab =>
      if s.lidder.cmdOut then s
      else ({ s with lidder := { s.lidder with cmdOut := true } }).send (.lidStart lab)
    | none => s
  | .laneWait => s.examineLane
  | .idle => s.examineLidder

end Sys2Proof.Machine
end

