-- ==== Sys2Proof/Machine/Head.lean ====
section
/-! DEFINITION. The dispense head: channels, the start check, charges, bursts and their reports, the end of
dispensing, and the settling of a tin stopped by the guard (R97 to R117, R188). -/

namespace Sys2Proof.Machine

/-! ### The start check -/

/-- Sends CHARGE for a channel: the pump becomes CHARGING, the channel WAIT-CHARGE (R106). -/
def State.sendCharge (s : State) (d : ChanId) : State :=
  let ch := s.chan d
  ((s.setPump ch.pos { s.pump ch.pos with state := .charging }).setChan d
    { ch with state := .waitCharge }).send (.charge ch.pos)

/-- The burst size: the smallest of the steps remaining, the piston charge and, in pulse mode, the pulse
burst (R107). -/
def burstSize (remaining charge pulse : Nat) : Nat :=
  if pulse = 0 then min remaining charge else min (min remaining charge) pulse

/-- Sends BURST for a channel: the pump and the channel become BURST, and the channel records the size
(R107). -/
def State.sendBurst (s : State) (d : ChanId) : State :=
  let ch := s.chan d
  let k := burstSize ch.remaining (s.pump ch.pos).charge (s.can ch.pos).kept.pulse
  ((s.setPump ch.pos { s.pump ch.pos with state := .burst }).setChan d
    { ch with state := .burst, burst := some k }).send (.burst ch.pos k)

/-- Sets the state of a channel. -/
def State.setChanState (s : State) (d : ChanId) (st : ChanState) : State :=
  s.setChan d { s.chan d with state := st }

/-- The start check on a canister that is READY or STIRRING (R104). No command is sent to a pump that is not
IDLE (R99). -/
def State.startOnFit (s : State) (d : ChanId) : State :=
  match (s.pump (s.chan d).pos).state with
  | .charging => s.setChanState d .waitCharge
  | .idle => if (s.pump (s.chan d).pos).charge = 0 then s.sendCharge d else s.sendBurst d
  | .burst => s
  | .recirc => s

/-- The start check of a channel (R104). While the line is HALTED nothing is started (R114). A canister
assigned to the station tin is never LOCKED or VACANT; with one that is, nothing is started (log entry 26). -/
def State.startCheck (s : State) (d : ChanId) : State :=
  match s.tin with
  | none => s
  | some t =>
    match t.stop with
    | .cancel => s.setChanState d .done
    | .guard => s.setChan d Channel.free
    | .none =>
      if s.halted then s
      else
        match (s.can (s.chan d).pos).state with
        | .settled => (s.setChanState d .waitRecirc).askRecirc (s.chan d).pos
        | .recirc => s.setChanState d .waitRecirc
        | .ready => s.startOnFit d
        | .stirring => s.startOnFit d
        | .locked => s
        | .vacant => s

/-- Every channel waiting for recirculation of a position passes the start check (R105). -/
def State.resumeRecirc (s : State) (p : Pos) : State :=
  allChans.foldl (fun s d =>
    if (s.chan d).state == .waitRecirc && (s.chan d).pos == p then s.startCheck d else s) s

/-- Every channel waiting for a charge of a position passes the start check (R106). -/
def State.resumeCharge (s : State) (p : Pos) : State :=
  allChans.foldl (fun s d =>
    if (s.chan d).state == .waitCharge && (s.chan d).pos == p then s.startCheck d else s) s

/-! ### Assignment -/

/-- A channel other than a FREE one holds component `i` (R102). -/
def State.held (s : State) (i : Nat) : Bool :=
  allChans.any fun d => (s.chan d).state != .free && (s.chan d).comp == i

/-- The first component, in formula order, with steps to dispense that no channel holds (R103, R110). `i`
is the number of the first component given. -/
def State.unassignedFrom (s : State) : Nat → List Nat → List Nat → Option Nat
  | i, k :: ks, x :: xs =>
    if decide (x < k) && !s.held i then some i else s.unassignedFrom (i + 1) ks xs
  | _, _, _ => none

/-- The first unassigned nonzero component of the station tin. -/
def State.unassigned (s : State) : Option Nat :=
  match s.tin with
  | some t => s.unassignedFrom 0 t.steps t.dispensed
  | none => none

/-- Gives the first unassigned component of the tin to a channel, which then passes the start check (R103). -/
def State.assignTo (s : State) (d : ChanId) : State :=
  match s.tin, s.unassigned with
  | some t, some i =>
    match s.job? t.handle with
    | none => s
    | some j =>
      match j.comps[i]? with
      | none => s
      | some c =>
        (s.setChan d
          { comp := i, pos := c.pos, remaining := t.steps.getD i 0 - t.dispensed.getD i 0, burst := none
            state := .done, dwellTimer := none }).startCheck d
  | _, _ => s

/-- Assigns components to the FREE channels, lowest-numbered first (R103). -/
def State.assignAll (s : State) : State :=
  allChans.foldl (fun s d => if (s.chan d).state == .free then s.assignTo d else s) s

/-! ### The end of dispensing -/

/-- A channel at work: WAIT-RECIRC, WAIT-CHARGE, BURST or DWELL. -/
def ChanState.working : ChanState → Bool
  | .free => false
  | .waitRecirc => true
  | .waitCharge => true
  | .burst => true
  | .dwell => true
  | .done => false

/-- Some channel is at work. -/
def State.anyWorking (s : State) : Bool := allChans.any fun d => (s.chan d).state.working

/-- Some channel has a burst in progress. -/
def State.anyBurst (s : State) : Bool := allChans.any fun d => (s.chan d).state == .burst

/-- Ends the tin's DISPENSING when no channel is at work and nothing is left to assign, or the dispensing
stop is CANCEL: a NORMAL tin enters DRIP, a REJECT tin HANDOFF. A tin stopped by the guard is not ended
here (R110). -/
def State.endDispensing (s : State) : State :=
  match s.tin with
  | none => s
  | some t =>
    if s.station == .dispensing && t.stop != .guard && !s.anyWorking &&
        (s.unassigned.isNone || t.stop == .cancel) then
      match t.route with
      | .normal =>
        ({ s.freeChans with station := .drip, dripTimer := some Config.dripMs }).modTin fun t =>
          { t with stage := .drip }
      | .reject => s.freeChans.handoffReject
    else s

/-! ### Settling a tin stopped by the guard -/

/-- Begins a tare capture, from full (R120). -/
def State.startTare (s : State) : State :=
  { s with capture := .tare, scaleTimer := some s.line.settings.scaleSettle }

/-- Begins a gross capture, from full (R122). -/
def State.startGross (s : State) : State :=
  { s with capture := .gross, scaleTimer := some s.line.settings.scaleSettle }

/-- Ends the capture being made: timer stopped, capture state NONE (R118). -/
def State.stopCapture (s : State) : State := { s with capture := .none, scaleTimer := none }

/-- The tin has had no step dispensed: it is kept and goes back to TARING (R115), with the expected mass it has (DEDUCED, log
entry 23: unsafe); a line that is not HALTED
begins its tare at once (R188). -/
def State.keepTin (s : State) : State :=
  let s1 := ({ s.freeChans with station := .taring }).modTin fun t =>
    { t with stage := .taring, stop := .none, tare := none, gross := none, net := none }
  if s.halted then s1 else s1.startTare

/-- The tin is spoiled: route REJECT, word SPOILED, HANDOFF; its attempt fails and the re-reservation is
tried (R115, R53). -/
def State.spoilTin (s : State) (t : TinCtx) : State :=
  ((s.freeChans.modTin fun t =>
    { t with route := .reject, word := some .spoiled, stop := .none }).handoffReject).spoilAttempt t

/-- Settles a tin whose dispensing stop is GUARD once none of its channels is in BURST (R115). -/
def State.settleGuard (s : State) : State :=
  match s.tin with
  | none => s
  | some t =>
    if t.stop == .guard && !s.anyBurst then
      if 0 < t.dispensed.sum then s.spoilTin t else s.keepTin
    else s

/-! ### Burst reports -/

/-- A channel becomes DONE and takes the next unassigned component if there is one; the end of the tin's
dispensing is examined (R110). -/
def State.channelDone (s : State) (d : ChanId) : State :=
  ((s.setChanState d .done).assignTo d).endDispensing

/-- The state a channel takes after its burst report (R108). -/
def State.channelNext (s : State) (d : ChanId) : State :=
  match s.tin with
  | none => s
  | some t =>
    match t.stop with
    | .cancel => (s.setChanState d .done).endDispensing
    | .guard => (s.setChan d Channel.free).settleGuard
    | .none =>
      if (s.chan d).remaining = 0 then s.channelDone d
      else if (s.can (s.chan d).pos).kept.pulse ≠ 0 then
        s.setChan d { s.chan d with
          state := .dwell, dwellTimer := some (s.can (s.chan d).pos).kept.dwell }
      else s.startCheck d

/-- The report of a burst on a channel, of `k` steps already bounded by the burst size (R108): the pump, the
channel and the tin context take the steps, stock is debited, the reservation falls, the return of the
pump to IDLE is reported, and the channel takes its next state. -/
def State.burstReport (s : State) (d : ChanId) (k : Nat) : State :=
  let ch := s.chan d
  let s1 := (s.setPump ch.pos { charge := (s.pump ch.pos).charge - k, state := .idle }).setChan d
    { ch with remaining := ch.remaining - k, burst := none }
  let s2 := (s1.modTin fun t => { t with dispensed := t.dispensed.modify ch.comp (· + k) }).debit ch.pos k
  let s3 := match s2.tin with
    | some t => s2.reserveReport t.handle ch.comp ch.pos k
    | none => s2
  (s3.examineRecirc ch.pos).channelNext d

/-- A pump's operation other than a burst has ended with a piston charge: the record is IDLE and the canister
table is told (R99, R25). -/
def State.pumpEnds (s : State) (p : Pos) (charge : Nat) : State :=
  (s.setPump p { charge := charge, state := .idle }).examineRecirc p

/-- A report of steps from a pump in BURST, bounded by the size of the burst of its channel (R101). -/
def State.takeBurst (s : State) (p : Pos) (steps : Nat) : State :=
  match s.findChan fun c => c.state == .burst && c.pos == p with
  | some d => s.burstReport d (min steps ((s.chan d).burst.getD 0))
  | none => s.pumpEnds p (s.pump p).charge

/-! ### CANCEL and guard opening at the station -/

/-- A channel at a CANCEL: waiting or dwelling becomes DONE with its dwell timer stopped, a burst runs on
(R113). -/
def Channel.atCancel (c : Channel) : Channel :=
  match c.state with
  | .waitRecirc => { c with state := .done, dwellTimer := none }
  | .waitCharge => { c with state := .done, dwellTimer := none }
  | .dwell => { c with state := .done, dwellTimer := none }
  | _ => c

/-- A channel at a guard opening: waiting or dwelling becomes FREE, a burst runs on (R114). -/
def Channel.atGuard (c : Channel) : Channel :=
  match c.state with
  | .waitRecirc => Channel.free
  | .waitCharge => Channel.free
  | .dwell => Channel.free
  | _ => c

/-- A channel of a tin whose dispensing stop becomes GUARD: FREE, unless a burst of it is in progress (R114,
R188; a DONE one too, DEDUCED, log entry 22: unsafe). -/
def Channel.atGuardStop (c : Channel) : Channel := if c.state == .burst then c else Channel.free

/-- The station tin is undecided: TARING, DISPENSING, DRIP or WEIGHING, on route NORMAL (R75, R113). -/
def State.undecided (s : State) (t : TinCtx) : Bool :=
  t.route == .normal &&
    (s.station == .taring || s.station == .dispensing || s.station == .drip || s.station == .weighing)

/-- Turns the undecided station tin to REJECT at a CANCEL (R113): the gate is shut, captures and timers are
stopped, and the tin goes to HANDOFF, from DISPENSING once no burst is in progress. -/
def State.cancelTin (s : State) : State :=
  let s1 := (s.stopCapture).modTin fun t =>
    { t with route := .reject, word := some .reject, stop := .cancel }
  match s.station with
  | .dispensing => ({ s1 with channels := mapVec Channel.atCancel s1.channels }).endDispensing
  | _ => ({ s1 with gateOpen := false, dripTimer := none }).handoffReject

/-- What the head and the weigh unit do with the station tin at a guard opening (R114, R121, R123). -/
def State.guardTin (s : State) : State :=
  let s1 := { s.stopCapture with
    channels := mapVec Channel.atGuard s.channels, dripTimer := none, gateOpen := false }
  match s.tin with
  | none => s1
  | some t =>
    if s.station == .taring then s1.modTin fun t => { t with tare := none }
    else if s.undecided t then
      (({ s1 with channels := mapVec Channel.atGuardStop s.channels }).modTin fun t =>
        { t with stop := .guard }).settleGuard
    else s1

end Sys2Proof.Machine
end

