-- ==== Sys2Proof/Machine/Weigh.lean ====
section
/-! DEFINITION. The weigh unit: what follows a settled tare, the judgement, counting and rejection (R98, R118
to R128). -/

namespace Sys2Proof.Machine

/-- The tare is settled: the gate is shut, the station enters DISPENSING, and the tin's components are
assigned to channels (R98). -/
def State.tareSettled (s : State) : State :=
  ((({ s with gateOpen := false, station := .dispensing }).modTin fun t =>
    { t with stage := .dispensing }).assignAll).endDispensing

/-- The outcome class of a judgement (R124). -/
inductive Verdict where
  | notChecked
  | weighNone
  | weighOut
  | pass
deriving DecidableEq, Repr

/-- The allowance: the larger of the absolute tolerance and floor(expected × relative tolerance / 1,000)
(R124). -/
def Settings.allowance (v : Settings) (expected : Nat) : Nat := max v.absTol (expected * v.relTol / 1000)

/-- The deviation: the absolute value of the net mass less the expected mass (R124). -/
def deviation (tare gross expected : Nat) : Nat := ((gross : Int) - (tare : Int) - (expected : Int)).natAbs

/-- The judgement of a tin, its cases in order (R124). -/
def verdict (v : Settings) (t : TinCtx) : Verdict :=
  let e := t.expected.getD 0
  if e < v.weighFloor then .notChecked
  else
    match t.tare, t.gross with
    | some tare, some gross => if v.allowance e < deviation tare gross e then .weighOut else .pass
    | _, _ => .weighNone

/-- Counts the station tin with weigh mark W or N (R125): the label marks are written, S(c) and c advance, the
entry becomes IN-FLIGHT with the context's figures, and the tin waits for a mixer. -/
def State.countTin (s : State) (t : TinCtx) (j : Job) (w n : Bool) : State :=
  let m := j.marks w n
  ((s.modTin fun t => { t with marks := m }).modJob t.handle fun j =>
    { j.advance with
      results := j.results.modify (t.index - 1) fun e =>
        { e with outcome := .inFlight, steps := some t.steps, expected := t.expected, net := t.net
                 marks := some m } }).handoffNormal

/-- Rejects the station tin (R126): route and word REJECT, the marks, a failed attempt, the job SUSPENDED with
the cause, and the tin goes to wait for the lidder. -/
def State.rejectTin (s : State) (t : TinCtx) (j : Job) (w n : Bool) (cause : Cause) : State :=
  ((((s.modTin fun t =>
    { t with marks := j.marks w n, route := .reject, word := some .reject }).failAttempt t).suspend
      t.handle cause)).handoffReject

/-- Acts on an outcome class with the job's disposition for it (R124, R62). -/
def State.judge (s : State) : State :=
  match s.tin with
  | none => s
  | some t =>
    match s.job? t.handle with
    | none => s
    | some j =>
      match verdict s.line.settings t with
      | .notChecked => s.countTin t j false true
      | .pass => s.countTin t j false false
      | .weighNone =>
        match j.dWeighNone with
        | .mark => s.countTin t j false true
        | .stop => s.rejectTin t j false true .weighNoneStop
      | .weighOut =>
        match j.dWeighOut with
        | .mark => s.countTin t j true false
        | .stop => s.rejectTin t j true false .weighStop

/-- Ends a tare capture with the tare it took, if any (R120). -/
def State.endTare (s : State) (mass : Option Nat) : State :=
  (s.stopCapture.modTin fun t => { t with tare := mass }).tareSettled

/-- The net mass: the gross less the tare, absent if either is absent (R122). -/
def netOf : Option Nat → Option Nat → Option Int
  | some tare, some gross => some ((gross : Int) - (tare : Int))
  | _, _ => none

/-- Ends a gross capture with the gross it took, if any, and judges the tin in the same event (R122). -/
def State.endGross (s : State) (mass : Option Nat) : State :=
  (s.stopCapture.modTin fun t => { t with gross := mass, net := netOf t.tare mass }).judge

end Sys2Proof.Machine
end

