-- ==== Sys2Proof/WellFormed.lean ====
section
/-! DEFINITION. The commands whose operands the lines of the part can carry. A request body has at most 240
bytes (R175); a SCAN carries a 2-character class code and a 4-character base code (R93); a READING
carries a mass of 0 to 100,000,000 mg (R119); LENGTH_BYTE_ABOVE_240 carries a byte above 240 (R160). -/

namespace Sys2Proof

/-- A body that a length byte of 0 to 240 can announce (R175). -/
def bodyFits (body : Bytes) : Bool := decide (body.length ≤ Config.maxBody)

/-- The two codes of a SCAN have their stated lengths (R93). -/
def scanFits (cls base : Text) : Bool := decide (cls.length = 2) && decide (base.length = 4)

/-- A store key names a record the store can hold: a class code has 2 characters (R81). -/
def StoreKey.fits : StoreKey → Bool
  | .canister _ => true
  | .tinClass code => decide (code.length = 2)
  | .settings => true

/-- Whether a command's operands are ones that its line or port can carry. -/
def Instr.wf : Instr → Bool
  | .submit _ _ body => bodyFits body
  | .cancel _ _ body => bodyFits body
  | .resume _ _ body => bodyFits body
  | .retire _ _ body => bodyFits body
  | .readJob _ _ body => bodyFits body
  | .readTin _ _ body => bodyFits body
  | .install _ _ body => bodyFits body
  | .remove _ _ body => bodyFits body
  | .calibrate _ _ body => bodyFits body
  | .refillBegin _ _ body => bodyFits body
  | .refillEnd _ _ body => bodyFits body
  | .adjust _ _ body => bodyFits body
  | .readCanister _ _ body => bodyFits body
  | .setTinClassSet _ _ body => bodyFits body
  | .setTinClassDelete _ _ body => bodyFits body
  | .setLine _ _ body => bodyFits body
  | .lineModePark _ _ body => bodyFits body
  | .lineModeWake _ _ body => bodyFits body
  | .resumeLine _ _ body => bodyFits body
  | .mixerReturn _ _ body => bodyFits body
  | .find _ _ body => bodyFits body
  | .status _ _ body => bodyFits body
  | .fetchNotice _ _ body => bodyFits body
  | .clearPort _ _ body => bodyFits body
  | .frameReceived _ _ _ body _ => bodyFits body
  | .frameGapTimeout _ => true
  | .answerSent _ => true
  | .burstDone _ _ => true
  | .chargeDone _ => true
  | .recircDone _ => true
  | .haltReport _ _ => true
  | .reading mass _ _ => decide (mass ≤ Config.maxMass)
  | .scan cls base => scanFits cls base
  | .loaded _ => true
  | .clampFault _ => true
  | .lidded => true
  | .tinTaken _ => true
  | .guardOpened => true
  | .guardClosed => true
  | .resetAssert none => true
  | .resetAssert (some k) => k.fits
  | .partStart => true
  | .settleTimerExpiry _ => true
  | .keepStirTimerExpiry _ => true
  | .callTimerExpiry => true
  | .dwellTimerExpiry _ => true
  | .dripTimerExpiry => true
  | .scaleSettleTimeout => true
  | .mixTimerExpiry _ => true
  | .powerLoss none => true
  | .powerLoss (some k) => k.fits
  | .frameStartByte _ => true
  | .lengthByteAbove240 _ len => decide (Config.maxBody < len.toNat)

end Sys2Proof
end

