-- ==== Sys2Proof/Machine/HeadEvents.lean ====
section
/-! DEFINITION. The events of the pumps, the scale and the scanner, and of the timers of the canister table,
the dispense head and the weigh unit (R26 to R28, R93 to R111, R119 to R122). -/

namespace Sys2Proof.Machine

/-! ### Pump reports -/

/-- A BURST-DONE of `steps`: taken in BURST, otherwise not taken (R101). -/
def State.burstDone (s : State) (p : Pos) (steps : Nat) : State :=
  match (s.pump p).state with
  | .burst => (s.takeBurst p steps).selectAfter s
  | .idle => s
  | .charging => s
  | .recirc => s

/-- BURST_DONE (R108, R101). -/
def execBurstDone (p : Pos) (steps : Nat) (s : State) : Host.Outcome State Fault Refusal :=
  .next (s.whenActive fun s => s.burstDone p steps)

/-- A CHARGE-DONE: taken in CHARGING (R101). The piston is full, and the waiting channel passes its start check
(R106). -/
def State.chargeDone (s : State) (p : Pos) : State :=
  match (s.pump p).state with
  | .charging => (s.pumpEnds p (s.can p).kept.stroke).resumeCharge p
  | .idle => s
  | .burst => s
  | .recirc => s

/-- CHARGE_DONE (R106, R101). -/
def execChargeDone (p : Pos) (s : State) : Host.Outcome State Fault Refusal :=
  .next (s.whenActive fun s => s.chargeDone p)

/-- A RECIRC-DONE: taken in RECIRC (R101). The piston is full; a canister in RECIRC becomes READY and the
channels waiting for it pass the start check; any other canister stays as it is (R26, R105). -/
def State.recircDone (s : State) (p : Pos) : State :=
  match (s.pump p).state with
  | .recirc =>
    let s1 := s.setPump p { charge := (s.can p).kept.stroke, state := .idle }
    match (s.can p).state with
    | .recirc => (s1.setCan p (s.can p).toReady).resumeRecirc p
    | _ => s1.examineRecirc p
  | .idle => s
  | .charging => s
  | .burst => s

/-- RECIRC_DONE (R26, R101). -/
def execRecircDone (p : Pos) (s : State) : Host.Outcome State Fault Refusal :=
  .next (s.whenActive fun s => s.recircDone p)

/-- A HALT-REPORT, by the state of the pump record (R100, R101). A pump that was charging for a channel is
charged again by that channel's start check (R106; DEDUCED, log entry 27: unsafe). -/
def State.haltReport (s : State) (p : Pos) (steps : Nat) : State :=
  match (s.pump p).state with
  | .burst => (s.takeBurst p steps).selectAfter s
  | .charging => (s.pumpEnds p 0).resumeCharge p
  | .recirc => s.pumpEnds p 0
  | .idle => s

/-- HALT_REPORT (R100, R101). -/
def execHaltReport (p : Pos) (steps : Nat) (s : State) : Host.Outcome State Fault Refusal :=
  .next (s.whenActive fun s => s.haltReport p steps)

/-! ### Scale -/

/-- The capture being made ends, with the mass taken if there is one (R120, R122), and a selection ends the
event (R85). -/
def State.endCapture (s : State) (mass : Option Nat) : State :=
  match s.capture with
  | .none => s
  | .tare => (s.endTare mass).select
  | .gross => (s.endGross mass).select

/-- A READING: used if it is stable and not overloaded and the line is not HALTED (R119). -/
def State.reading (s : State) (mass : Nat) (stable overload : Bool) : State :=
  if stable && !overload && !s.halted then s.endCapture (some mass) else s

/-- READING (R119, R120, R122). -/
def execReading (mass : Nat) (stable overload : Bool) (s : State) : Host.Outcome State Fault Refusal :=
  if mass ≤ Config.maxMass then .next (s.whenActive fun s => s.reading mass stable overload)
  else .refused (.illFormed "READING")

/-- The scale settle timer expires while it runs: the capture ends with no mass (R120, R122). -/
def State.scaleTimeout (s : State) : State := if s.scaleTimer.isSome then s.endCapture none else s

/-- SCALE_SETTLE_TIMEOUT (R120, R122). -/
def execScaleSettleTimeout (s : State) : Host.Outcome State Fault Refusal :=
  .next (s.whenActive State.scaleTimeout)

/-! ### Scanner -/

/-- The context of an admitted tin, in TARING (R93, R97). -/
def newTin (c : Call) (j : Job) : TinCtx :=
  { handle := c.handle, index := c.index, stop := .none, stage := .taring, steps := j.nextSteps
    dispensed := j.nextSteps.map fun _ => 0, tare := none, gross := none, net := none, expected := none
    route := .normal, marks := Marks.none, word := none }

/-- A matching SCAN admits the tin (R93): the gate opens, the call ends, the expiry count returns to 0, tins
started rises, and the tin's context and tare capture begin (R97, R120). -/
def State.admitTin (s : State) (c : Call) (j : Job) : State :=
  (({ s with gateOpen := true, call := none, callTimer := none, station := .taring
             tin := some (newTin c j) }).modJob c.handle fun j =>
    { j with expiries := 0, started := j.started + 1 }).startTare

/-- A SCAN (R93, R94): ignored with no call or while HALTED; a match admits the tin; any other queues
WRONG-TIN for the owner of the called job. -/
def State.scan (s : State) (cls base : Text) : State :=
  match s.call with
  | none => s
  | some c =>
    if s.halted || s.station != .calling then s
    else
      match s.job? c.handle with
      | none => s
      | some j =>
        if cls = c.cls ∧ base = c.base then s.admitTin c j else s.notify j.owner (.wrongTin cls base)

/-- SCAN (R93, R94). -/
def execScan (cls base : Text) (s : State) : Host.Outcome State Fault Refusal :=
  if scanFits cls base then .next (s.whenActive fun s => s.scan cls base)
  else .refused (.illFormed "SCAN")

/-! ### Timers -/

/-- The settle timer of a READY canister expires: STIRRING on a line in RUN or PARKING, SETTLED on one PARKED
or HALTED (R27). -/
def State.settleExpiry (s : State) (p : Pos) : State :=
  let c := s.can p
  if c.state == .ready && c.settleTimer.isSome then
    match s.line.mode with
    | .run => s.setCan p c.toStirring
    | .parking => s.setCan p c.toStirring
    | .parked => s.setCan p c.toSettled
    | .halted => s.setCan p c.toSettled
  else s

/-- SETTLE_TIMER_EXPIRY (R27). -/
def execSettleTimerExpiry (p : Pos) (s : State) : Host.Outcome State Fault Refusal :=
  .next (s.whenActive fun s => s.settleExpiry p)

/-- The keep-stir timer of a STIRRING canister expires: READY (R28), and channels waiting for the canister pass
the start check (R105; DEDUCED, log entry 31: safe). -/
def State.keepStirExpiry (s : State) (p : Pos) : State :=
  let c := s.can p
  if c.state == .stirring && c.keepTimer.isSome then (s.setCan p c.toReady).resumeRecirc p else s

/-- KEEP_STIR_TIMER_EXPIRY (R28). -/
def execKeepStirTimerExpiry (p : Pos) (s : State) : Host.Outcome State Fault Refusal :=
  .next (s.whenActive fun s => s.keepStirExpiry p)

/-- The dwell timer of a channel in DWELL expires: the channel passes the start check (R109). -/
def State.dwellExpiry (s : State) (d : ChanId) : State :=
  let c := s.chan d
  if c.state == .dwell && c.dwellTimer.isSome then (s.setChan d { c with dwellTimer := none }).startCheck d
  else s

/-- DWELL_TIMER_EXPIRY (R109). -/
def execDwellTimerExpiry (d : ChanId) (s : State) : Host.Outcome State Fault Refusal :=
  .next (s.whenActive fun s => s.dwellExpiry d)

/-- The drip ends: the station and the tin enter WEIGHING, the expected mass is written, and the gross capture
begins (R111, R122). -/
def State.dripExpiry (s : State) : State :=
  match s.tin with
  | none => s
  | some t =>
    match s.job? t.handle with
    | none => s
    | some j =>
      if s.station == .drip && s.dripTimer.isSome then
        (({ s with station := .weighing, dripTimer := none }).modTin fun t =>
          { t with stage := .weighing, expected := some (expectedMass s t.steps j.comps) }).startGross
      else s

/-- DRIP_TIMER_EXPIRY (R111). -/
def execDripTimerExpiry (s : State) : Host.Outcome State Fault Refusal := .next (s.whenActive State.dripExpiry)

end Sys2Proof.Machine
end

