-- ==== Sys2Proof/Machine/Operands.lean ====
section
/-! DEFINITION. Reading and writing the fields of bodies and records: the encodings of R174, the code values of
R187, the refusal header of R179, and the typed bodies of R177 and R178. -/

namespace Sys2Proof.Machine

/-! ### Field encodings (R174) -/

/-- One byte of a body as a number. Bytes beyond the end are read only where a length check has refused
the body. -/
def u8 (b : Bytes) (off : Nat) : Nat := (b.getD off 0).toNat

/-- An unsigned number of `width` bytes, most significant byte first. -/
def uN (b : Bytes) (off : Nat) : Nat → Nat
  | 0 => 0
  | w + 1 => uN b off w * 256 + u8 b (off + w)

/-- A text field of length `len`. -/
def textAt (b : Bytes) (off len : Nat) : Text := (b.drop off).take len

/-- A printable ASCII character. -/
def isPrintable (c : Byte) : Bool := decide (0x20 ≤ c.toNat) && decide (c.toNat ≤ 0x7E)

/-- A text field holds printable ASCII only. -/
def printable (t : Text) : Bool := t.all isPrintable

/-- A text field is all spaces. -/
def blankText (t : Text) : Bool := t.all (· == 0x20)

/-- One byte from a number. -/
def byte (n : Nat) : Byte := BitVec.ofNat 8 n

/-- A whole number in `width` bytes, most significant byte first. -/
def be : Nat → Nat → Bytes
  | 0, _ => []
  | w + 1, n => byte (n / 256 ^ w) :: be w n

/-- A signed number of width 4 in two's complement. -/
def be4signed (z : Int) : Bytes := be 4 (z % 4294967296).toNat

/-- A flag as a byte. -/
def flag (b : Bool) : Byte := if b then 1 else 0

/-- An optional field of `width` bytes: a presence byte, then the field, all zero when absent. -/
def optional {α : Type} (width : Nat) (enc : α → Bytes) : Option α → Bytes
  | some x => 1 :: enc x
  | none => 0 :: List.replicate width 0

/-- A list in a fixed number of places of `width` bytes each, places beyond its length all zero. -/
def places {α : Type} (count width : Nat) (enc : α → Bytes) (l : List α) : Bytes :=
  (l.take count).flatMap enc ++ List.replicate ((count - l.length) * width) 0

/-- A handle: slot number, then generation. -/
def encHandle (h : Handle) : Bytes := [byte h.slot.val, byte h.gen]

/-! ### Code values (R187) -/

/-- The answer codes. -/
inductive AnswerCode where
  | ok
  | role
  | format
  | range
  | noJob
  | notOwner
  | state
  | tableFull
  | poolFull
  | short
  | overfill
  | substep
  | noClass
  | noColourant
  | duplicate
  | stale
  | covered
  | busy
  | overrun
  | frameError
deriving DecidableEq, Repr

def codeAnswer : AnswerCode → Byte
  | .ok => 0x00
  | .role => 0x01
  | .format => 0x02
  | .range => 0x03
  | .noJob => 0x04
  | .notOwner => 0x05
  | .state => 0x06
  | .tableFull => 0x07
  | .poolFull => 0x08
  | .short => 0x09
  | .overfill => 0x0A
  | .substep => 0x0B
  | .noClass => 0x0C
  | .noColourant => 0x0D
  | .duplicate => 0x0E
  | .stale => 0x0F
  | .covered => 0x10
  | .busy => 0x11
  | .overrun => 0x12
  | .frameError => 0x13

def codeDisposition : Disposition → Byte
  | .mark => 0
  | .stop => 1

def codeShortage : Shortage → Byte
  | .wait => 0
  | .refuse => 1

def codeCanState : CanState → Byte
  | .vacant => 0
  | .settled => 1
  | .recirc => 2
  | .ready => 3
  | .stirring => 4
  | .locked => 5

def codePumpState : PumpState → Byte
  | .idle => 0
  | .charging => 1
  | .burst => 2
  | .recirc => 3

def codeJobState : JobState → Byte
  | .waitingStock => 1
  | .ready => 2
  | .active => 3
  | .suspended => 4
  | .cancelling => 5
  | .done => 6
  | .cancelled => 7

def codeCause : Cause → Byte
  | .admitted => 1
  | .stockWait => 2
  | .stockGranted => 3
  | .callExpired => 4
  | .lotStop => 5
  | .weighStop => 6
  | .weighNoneStop => 7
  | .resumed => 8
  | .returnedWait => 9
  | .cancelled => 10
  | .done => 11

/-- The suspension cause, 0 while absent. -/
def codeSuspension : Option Cause → Byte
  | some c => codeCause c
  | none => 0

def codeOutcome : TinOutcome → Byte
  | .pending => 0
  | .inFlight => 1
  | .delivered => 2
  | .notMade => 3

/-- A lane, 0 while absent. -/
def codeLane : Option Lane → Byte
  | none => 0
  | some .la => 1
  | some .lb => 2
  | some .lc => 3
  | some .lx => 4

def codeMixer : MixerId → Byte
  | .m1 => 1
  | .m2 => 2

def codePort : Port → Byte
  | .a => 1
  | .b => 2
  | .c => 3
  | .w => 4

def codeLineMode : LineMode → Byte
  | .run => 1
  | .parking => 2
  | .parked => 3
  | .halted => 4

def codeGuard : GuardState → Byte
  | .opened => 0
  | .closed => 1

def codeStation : StationState → Byte
  | .idle => 0
  | .calling => 1
  | .taring => 2
  | .dispensing => 3
  | .drip => 4
  | .weighing => 5
  | .handoff => 6

def codeChan : ChanState → Byte
  | .free => 0
  | .waitRecirc => 1
  | .waitCharge => 2
  | .burst => 3
  | .dwell => 4
  | .done => 5

def codeCapture : Capture → Byte
  | .none => 0
  | .tare => 1
  | .gross => 2

def codeMixState : MixState → Byte
  | .idle => 0
  | .loading => 1
  | .mixing => 2
  | .holding => 3
  | .out => 4

def codeLidState : LidState → Byte
  | .idle => 0
  | .lidding => 1
  | .laneWait => 2

def codeSource : Source → Byte
  | .m1 => 1
  | .m2 => 2
  | .station => 3

/-- The marks byte: the sum of W 1, N 2, L 4, S 8. -/
def codeMarks (m : Marks) : Byte :=
  byte ((if m.w then 1 else 0) + (if m.n then 2 else 0) + (if m.l then 4 else 0) + (if m.s then 8 else 0))

/-- The label word, 0 for none (R186). -/
def codeWord : Option LabelWord → Byte
  | none => 0
  | some .reject => 1
  | some .spoiled => 2

/-- The request kinds from 0x01 to 0x16 (R176). -/
def codeKind : ReqKind → Byte
  | .submit => 0x01
  | .cancel => 0x02
  | .resume => 0x03
  | .retire => 0x04
  | .readJob => 0x05
  | .readTin => 0x06
  | .install => 0x07
  | .remove => 0x08
  | .calibrate => 0x09
  | .refillBegin => 0x0A
  | .refillEnd => 0x0B
  | .adjust => 0x0C
  | .readCanister => 0x0D
  | .setTinClass => 0x0E
  | .setLine => 0x0F
  | .lineMode => 0x10
  | .resumeLine => 0x11
  | .mixerReturn => 0x12
  | .find => 0x13
  | .status => 0x14
  | .fetchNotice => 0x15
  | .clearPort => 0x16

/-- The request kinds in code order. -/
def allKinds : List ReqKind :=
  [.submit, .cancel, .resume, .retire, .readJob, .readTin, .install, .remove, .calibrate, .refillBegin,
   .refillEnd, .adjust, .readCanister, .setTinClass, .setLine, .lineMode, .resumeLine, .mixerReturn, .find,
   .status, .fetchNotice, .clearPort]

/-- The request kind a kind byte names, if any (R176). -/
def kindOf? (b : Byte) : Option ReqKind := allKinds.find? fun k => codeKind k == b

/-! ### Refusals (R179) -/

/-- A refusal: its code, the field and component numbers it names (0 when none is named), and its detail. -/
structure Nak where
  code : AnswerCode
  field : Nat
  comp : Nat
  detail : Bytes
deriving DecidableEq, Repr

/-- A refusal that names nothing: of a wrong body length, or by a rule that names no field (DEDUCED, log entries 8
and 9: unsafe). -/
def nak (c : AnswerCode) : Nak := ⟨c, 0, 0, []⟩

/-- A refusal that names a field. -/
def nakField (c : AnswerCode) (f : Nat) : Nak := ⟨c, f, 0, []⟩

/-- A refusal that names a component, counted from 1. -/
def nakComp (c : AnswerCode) (i : Nat) : Nak := ⟨c, 0, i, []⟩

/-- The body of a refusal answer (R179). -/
def Nak.bytes (r : Nak) : Bytes := codeAnswer r.code :: byte r.field :: byte r.comp :: r.detail

/-- The body of an OK answer: its header and its content (R179). -/
def okBytes (content : Bytes) : Bytes := 0 :: 0 :: 0 :: content

/-- One check: the refusal if the check fails. -/
def refuseIf (bad : Bool) (r : Nak) : Option Nak := if bad then some r else none

/-- Checks examined in order: the first that fails gives the answer. -/
def firstRefusal (l : List (Option Nak)) : Option Nak := l.findSome? id

/-! ### Typed bodies -/

/-- The position a position byte names, once it has passed the RANGE check. -/
def posOf (n : Nat) : Pos := Fin.ofNat 16 n

/-- The handle of two bytes, once it has passed the RANGE check. -/
def handleOf (b : Bytes) (off : Nat) : Handle := ⟨Fin.ofNat 24 (u8 b off), u8 b (off + 1)⟩

/-- A component entry of a SUBMIT body (R177). -/
structure CompEntry where
  code : Text
  amount : Text
  scale : Nat
deriving DecidableEq, Repr

/-- A SUBMIT body (R177). The dispositions and the shortage option stand as code bytes. -/
structure SubmitBody where
  orderRef : Text
  colour : Text
  base : Text
  cls : Text
  vref : Nat
  n : Nat
  dSubstep : Nat
  dWeighOut : Nat
  dWeighNone : Nat
  dLotBreak : Nat
  shortage : Nat
  comps : List CompEntry
deriving DecidableEq, Repr

/-- Component entry `i`, counted from 0. -/
def compEntryAt (b : Bytes) (i : Nat) : CompEntry :=
  { code := textAt b (43 + 11 * i) 3, amount := textAt b (46 + 11 * i) 7, scale := u8 b (53 + 11 * i) }

/-- Reads a SUBMIT body. -/
def submitBody (b : Bytes) : SubmitBody :=
  { orderRef := textAt b 0 12, colour := textAt b 12 16, base := textAt b 28 4, cls := textAt b 32 2
    vref := uN b 34 2, n := u8 b 36, dSubstep := u8 b 37, dWeighOut := u8 b 38, dWeighNone := u8 b 39
    dLotBreak := u8 b 40, shortage := u8 b 41
    comps := (List.range (u8 b 42)).map (compEntryAt b) }

/-- The disposition of a code byte, once it has passed the FORMAT check. -/
def dispositionOf (n : Nat) : Disposition := if n = 0 then .mark else .stop

/-- The shortage option of a code byte, once it has passed the FORMAT check. -/
def shortageOf (n : Nat) : Shortage := if n = 0 then .wait else .refuse

/-- The record an INSTALL body declares, its level as given and its change count 0 (R178, R33). -/
def installRecord (b : Bytes) : CanRecord :=
  { installed := true, code := textAt b 1 3, capacity := uN b 4 4, heel := uN b 8 4, lowMark := uN b 12 4
    q := uN b 16 2, density := uN b 18 2, stroke := uN b 20 2, pulse := uN b 22 2, dwell := uN b 24 2
    settleLimit := u8 b 26, recircTime := uN b 27 2, keepStir := u8 b 29, level := uN b 30 4
    lot := textAt b 34 8, count := 0 }

/-- The values a SET-LINE body gives, before clamping (R178). -/
def settingsBody (b : Bytes) : Settings :=
  { callTimeout := uN b 0 2, quota := u8 b 2, scaleSettle := uN b 3 2, weighFloor := uN b 5 2
    absTol := uN b 7 2, relTol := u8 b 9 }

/-- Each setting clamped to its range (R153). -/
def Settings.clamp (v : Settings) : Settings :=
  { callTimeout := Config.callTimeoutRange.clamp v.callTimeout, quota := Config.quotaRange.clamp v.quota
    scaleSettle := Config.scaleSettleRange.clamp v.scaleSettle
    weighFloor := Config.weighFloorRange.clamp v.weighFloor, absTol := Config.absTolRange.clamp v.absTol
    relTol := Config.relTolRange.clamp v.relTol }

/-- The class a SET-TIN-CLASS body with operation SET gives (R178). -/
def tinClassBody (b : Bytes) : TinClass :=
  { code := textAt b 1 2, fill := uN b 3 2, headroom := uN b 5 2, mixTime := uN b 7 2 }

end Sys2Proof.Machine
end

