-- ==== Sys2Proof/Machine/Frames.lean ====
section
/-! DEFINITION. The port controller: frames and their CRC, the receiver, the receive hold, roles, the taking of
requests and the sending of answers (R159 to R164, R175, R176). -/

namespace Sys2Proof.Machine

/-! ### CRC (R161) -/

/-- One bit of the CRC with polynomial 0x1021, most significant bit first. -/
def crcBit (r : BitVec 16) : BitVec 16 := if r.msb then (r <<< 1) ^^^ 0x1021#16 else r <<< 1

/-- `n` bits of the CRC. -/
def crcBits : Nat → BitVec 16 → BitVec 16
  | 0, r => r
  | n + 1, r => crcBits n (crcBit r)

/-- One byte of the CRC. -/
def crcByte (r : BitVec 16) (b : Byte) : BitVec 16 := crcBits 8 (r ^^^ (b.zeroExtend 16 <<< 8))

/-- The CRC of a run of bytes, initial value 0xFFFF (R161). -/
def crc16 (l : Bytes) : BitVec 16 := l.foldl crcByte 0xFFFF#16

/-- The CRC of a frame, over length byte, kind byte, tag byte and body (R161). -/
def frameCrc (kind tag : Byte) (body : Bytes) : BitVec 16 :=
  crc16 (byte body.length :: kind :: tag :: body)

/-- The bytes of a frame on the link, with the CRC it carries, high byte first (R175). -/
def frameBytes (kind tag : Byte) (body : Bytes) (crc : BitVec 16) : Bytes :=
  0x7E :: byte body.length :: kind :: tag :: (body ++ be 2 crc.toNat)

/-- The bytes of an answer frame on the link (R175). -/
def Answer.wire (a : Answer) : Bytes := frameBytes a.kind a.tag a.body (frameCrc a.kind a.tag a.body)

/-! ### Answers out (R163) -/

/-- The error answers out on a port. -/
def PortState.errorsOut (ps : PortState) : Nat := (ps.out.filter (·.isError)).length

/-- An answer of a request taken on the port is out (R163). -/
def PortState.requestOut (ps : PortState) : Bool := ps.out.any fun a => !a.isError

/-- Produces an error answer, unless 2 are out (R163). -/
def PortState.addError (ps : PortState) (a : Answer) : PortState :=
  if ps.errorsOut < Config.maxErrorAnswers then { ps with out := ps.out ++ [a] } else ps

/-- The FRAME-ERROR answer: kind 0xFF, tag 0 (R161, R176). -/
def frameErrorAnswer : Answer :=
  { kind := 0xFF, tag := 0, body := (nak .frameError).bytes, isError := true }

/-- The kind byte of the answer to a request (R176). -/
def answerKind (k : ReqKind) : Byte := codeKind k + 0x80

/-- The OVERRUN answer of a discarded request frame (R162, R176). -/
def overrunAnswer (f : Frame) : Answer :=
  { kind := answerKind f.kind, tag := f.tag, body := (nak .overrun).bytes, isError := true }

/-- The answer to a request taken (R163). -/
def requestAnswer (k : ReqKind) (tag : Byte) (body : Bytes) : Answer :=
  { kind := answerKind k, tag := tag, body := body, isError := false }

/-! ### Reception (R160 to R162) -/

/-- The receiver returns to HUNT (R160). -/
def PortState.hunt (ps : PortState) : PortState := { ps with rx := [], gap := none }

/-- A complete frame is examined: a CRC that differs or a kind that is no request kind earns FRAME-ERROR
(R161); a request joins the hold, or earns OVERRUN when the hold has 2 frames (R162). -/
def PortState.examineFrame (ps : PortState) (kind tag : Byte) (body : Bytes) (crc : BitVec 16) : PortState :=
  if crc = frameCrc kind tag body then
    match kindOf? kind with
    | none => ps.addError frameErrorAnswer
    | some k =>
      if ps.hold.length < Config.holdFrames then { ps with hold := ps.hold ++ [⟨k, tag, body⟩] }
      else ps.addError (overrunAnswer ⟨k, tag, body⟩)
  else ps.addError frameErrorAnswer

/-- The frame that `rx` completes, taken apart by the layout of R175 and examined. `len` is its length byte. -/
def PortState.completeFrame (ps : PortState) (len : Nat) (rx : Bytes) : PortState :=
  ps.hunt.examineFrame (rx.getD 2 0) (rx.getD 3 0) ((rx.drop 4).take len) (BitVec.ofNat 16 (uN rx (4 + len) 2))

/-- One byte arrives (R160). In HUNT only the start byte counts; a length byte above 240 earns FRAME-ERROR;
the second CRC byte completes the frame; any other byte of a frame is kept and restarts the gap limit. -/
def PortState.byteIn (ps : PortState) (b : Byte) : PortState :=
  match ps.rx with
  | [] => if b = 0x7E then { ps with rx := [b], gap := some Config.gapMs } else ps
  | [x] =>
    if Config.maxBody < b.toNat then ps.hunt.addError frameErrorAnswer
    else { ps with rx := [x, b], gap := some Config.gapMs }
  | x :: len :: l =>
    if l.length + 3 = len.toNat + 6 then ps.completeFrame len.toNat (x :: len :: (l ++ [b]))
    else { ps with rx := x :: len :: (l ++ [b]), gap := some Config.gapMs }

/-! ### Roles (R164) -/

/-- Whether a request is admitted from a port. -/
def admits : ReqKind → Port → Bool
  | .submit, p => p != .w
  | .cancel, p => p != .w
  | .resume, p => p != .w
  | .retire, p => p != .w
  | .install, p => p == .w
  | .remove, p => p == .w
  | .calibrate, p => p == .w
  | .refillBegin, p => p == .w
  | .refillEnd, p => p == .w
  | .adjust, p => p == .w
  | .setTinClass, p => p == .w
  | .setLine, p => p == .w
  | .readJob, _ => true
  | .readTin, _ => true
  | .readCanister, _ => true
  | .lineMode, _ => true
  | .resumeLine, _ => true
  | .mixerReturn, _ => true
  | .find, _ => true
  | .status, _ => true
  | .fetchNotice, _ => true
  | .clearPort, _ => true

/-! ### Taking a request (R163) -/

/-- The port takes this frame: the part runs, the frame is at the head of the hold, and no answer of an
earlier request is out (R163). -/
def State.canTake (s : State) (p : Port) (f : Frame) : Bool :=
  s.active && (s.port p).hold.head? == some f && !(s.port p).requestOut

/-- The frame leaves the hold (R162). -/
def State.popHold (s : State) (p : Port) : State :=
  s.setPort p { s.port p with hold := (s.port p).hold.tail }

/-- Adds the answer of the request just taken (R163). -/
def State.answer (s : State) (p : Port) (a : Answer) : State :=
  s.setPort p { s.port p with out := (s.port p).out ++ [a] }

/-- What a block makes of a request: `refusal` is the first failing check, and `effect` the state the request
leaves when it is taken, with the content of its OK answer. A refused request changes nothing. -/
def serve (refusal : State → Option Nak) (effect : State → State × Bytes) (s : State) : State × Bytes :=
  match refusal s with
  | some r => (s, r.bytes)
  | none =>
    let e := effect s
    (e.1, okBytes e.2)

/-- The taking of a request (R163, R164): the frame leaves the hold, the role check is made, the block acts,
and the answer goes out with the request's kind and tag. If the port does not take this frame, nothing
happens (DEDUCED, log entry 1: safe). -/
def State.take (s : State) (p : Port) (k : ReqKind) (tag : Byte) (body : Bytes)
    (refusal : State → Option Nak) (effect : State → State × Bytes) : State :=
  if s.canTake p ⟨k, tag, body⟩ then
    if admits k p then
      let r := serve refusal effect (s.popHold p)
      r.1.answer p (requestAnswer k tag r.2)
    else (s.popHold p).answer p (requestAnswer k tag (nak .role).bytes)
  else s

end Sys2Proof.Machine
end

