-- ==== Sys2Proof/Machine/Layout.lean ====
section
/-! DEFINITION. The records carried in answers and on the lidder line, byte by byte (R180 to R186). -/

namespace Sys2Proof.Machine

/-- The canister summary, 57 bytes (R184, R40). -/
def canisterSummary (s : State) (p : Pos) : Bytes :=
  let c := s.can p
  [byte p.val, flag c.kept.installed, codeCanState c.state] ++ c.kept.code ++ c.kept.lot ++
    be 4 c.kept.capacity ++ be 4 c.kept.heel ++ be 4 c.kept.lowMark ++ be 4 c.kept.level ++
    be 4 c.kept.usable ++ be 4 (s.reservedVol p) ++ be 4 (s.freeVol p) ++ be 2 c.kept.q ++
    be 2 c.kept.density ++ be 2 c.kept.count ++ [flag c.latch, flag c.demand] ++
    [codePumpState (s.pump p).state] ++ be 2 (s.pump p).charge ++ [byte (s.waitList p).length] ++
    optional 2 encHandle (s.waitList p).head?

/-- The job's place in its wait list, counted from 1 at the head, with the list's position (R57). -/
def waitPlace (s : State) (h : Handle) : Option (Pos × Nat) :=
  (s.waitPos? h).map fun p => (p, (s.waitList p).idxOf h + 1)

/-- A handle with a tin index. -/
def encTin (x : Handle × Nat) : Bytes := encHandle x.1 ++ [byte x.2]

/-- The tin index called for a job, if one is called (R79). -/
def State.calledTin (s : State) (h : Handle) : Option Nat :=
  match s.call with
  | some c => if c.handle = h then some c.index else none
  | none => none

/-- The tins of a job on the line, as place and index, in the order station, M1, M2, lidder (R181). -/
def State.tinsOf (s : State) (h : Handle) : List (Nat × Nat) :=
  (s.tins.filter fun x => x.2.handle == h).map fun x => (x.1, x.2.index)

/-- Part 0 of a job summary, 67 bytes (R181). -/
def jobPart0 (s : State) (h : Handle) (j : Job) : Bytes :=
  encHandle h ++ [codePort j.owner, codeJobState j.state, codeSuspension j.cause] ++ j.orderRef ++ j.colour ++
    j.base ++ j.cls ++ be 2 j.vref ++ [byte j.n] ++
    [codeDisposition j.dSubstep, codeDisposition j.dWeighOut, codeDisposition j.dWeighNone,
      codeDisposition j.dLotBreak, codeShortage j.shortage] ++
    [byte j.counted, byte j.started, byte j.delivered, byte j.expiries, flag j.pendingRe.isSome] ++
    optional 2 (fun x => [byte x.1.val, byte x.2]) (waitPlace s h) ++
    optional 1 (fun i => [byte i]) (s.calledTin h) ++
    [byte (s.tinsOf h).length] ++ places 4 2 (fun x => [byte x.1, byte x.2]) (s.tinsOf h) ++
    [byte j.comps.length]

/-- Part i of a job summary, 42 bytes; `i` counts from 1 (R181). -/
def jobPart (j : Job) (i : Nat) (c : Component) : Bytes :=
  [byte i, byte c.pos.val] ++ c.code ++ c.amount ++ [byte c.scale] ++ be 4 c.a ++ be 2 c.qSnap ++
    be 4 c.cum ++ be 4 c.reserved ++ c.lotSnap ++ [flag c.substep, flag c.lotBreak] ++
    optional 4 (be 4) (j.pendingRe.map fun l => l.getD (i - 1) 0)

/-- The TINS-LEFT figure of FIND: 0 for a job that is CANCELLING, DONE or CANCELLED (R63, R171). -/
def State.tinsLeftShown (s : State) (h : Handle) (j : Job) : Nat :=
  if j.state == .cancelling || j.state == .done || j.state == .cancelled then 0 else s.tinsLeft h j

/-- The job summary of a FIND match, 40 bytes (R180, R172). -/
def jobSummary (s : State) (h : Handle) (j : Job) : Bytes :=
  encHandle h ++ [codePort j.owner, codeJobState j.state, codeSuspension j.cause] ++ j.orderRef ++ j.colour ++
    j.cls ++ [byte j.n, byte j.counted, byte j.started, byte j.delivered, byte (s.tinsLeftShown h j)]

/-- Whether an attempt of a PENDING tin is called (1), at the station (2) or neither (0) (R80, R185). A tin whose attempt
has failed is still shown at the station while it stands there in HANDOFF (DEDUCED, log entry 48: unsafe). -/
def attemptOnLine (s : State) (h : Handle) (e : TinResult) : Nat :=
  if e.outcome == .pending then
    if s.calledTin h == some e.index then 1
    else
      match s.tin with
      | some t => if t.handle = h ∧ t.index = e.index then 2 else 0
      | none => 0
  else 0

/-- The tin result entry, 43 bytes (R185). -/
def tinEntry (s : State) (h : Handle) (j : Job) (e : TinResult) : Bytes :=
  encHandle h ++ [byte e.index, codeOutcome e.outcome, byte e.attempts, byte j.comps.length] ++
    places 6 4 (be 4) (e.steps.getD []) ++ optional 4 (be 4) e.expected ++ optional 4 be4signed e.net ++
    [codeMarks (e.marks.getD Marks.none), codeLane e.lane, byte (attemptOnLine s h e)]

/-- The six line settings, laid out as the SET-LINE body (R178, R180). -/
def encSettings (v : Settings) : Bytes :=
  be 2 v.callTimeout ++ [byte v.quota] ++ be 2 v.scaleSettle ++ be 2 v.weighFloor ++ be 2 v.absTol ++
    [byte v.relTol]

/-- A tin position's optional handle and index (R182). -/
def encTinOf (t : Option TinCtx) : Bytes := optional 3 encTin (t.map fun t => (t.handle, t.index))

/-- The time left on the call timer in whole seconds, rounded down; 0 while no call stands (R173, R174; DEDUCED,
log entry 24: unsafe). -/
def State.callSeconds (s : State) : Nat := s.callTimer.getD 0 / 1000

/-- Free entries of the tin result pool (R64). -/
def State.freeEntries (s : State) : Nat := Config.poolEntries - (s.jobs.map fun x => x.2.n).sum

/-- The job state of a slot's occupant, 0 when empty (R182). -/
def slotByte (sl : Slot) : Byte :=
  match sl.job with
  | some j => codeJobState j.state
  | none => 0

/-- The line status for a requesting port, 168 bytes (R182, R173). -/
def lineStatus (s : State) (p : Port) : Bytes :=
  [codeLineMode s.line.mode] ++ optional 1 (fun g => [codeGuard g]) s.line.guard ++
    encSettings s.line.settings ++ [byte s.queue.length] ++ places 24 2 encHandle s.queue ++ [byte s.quota] ++
    optional 3 encTin (s.call.map fun c => (c.handle, c.index)) ++ be 2 s.callSeconds ++
    [codeStation s.station] ++ encTinOf s.tin ++
    (allChans.flatMap fun d =>
      [codeChan (s.chan d).state, if (s.chan d).state = .free then 0 else byte (s.chan d).pos.val]) ++
    [codeCapture s.capture, flag ((s.tin.bind (·.tare)).isSome)] ++
    [codeMixState s.m1.state] ++ encTinOf s.m1.tin ++ [codeMixState s.m2.state] ++ encTinOf s.m2.tin ++
    [codeLidState s.lidder.state] ++ encTinOf s.lidder.tin ++ [codeLane s.lidder.dest] ++
    [byte s.lidder.claims.length] ++ places 3 1 (fun x => [codeSource x]) s.lidder.claims ++
    [byte s.lanes.la, byte s.lanes.lb, byte s.lanes.lc, byte s.lanes.lx] ++
    (allSlots.map fun i => slotByte (s.slot i)) ++ be 2 s.freeEntries ++
    (allPos.map fun q => codeCanState (s.can q).state) ++
    (allPos.map fun q => byte (s.waitList q).length) ++
    [byte (s.port p).notices.length, flag (s.port p).lost]

/-- The kind code of a notice (R183). -/
def codeNotice : Notice → Byte
  | .guard _ => 1
  | .mixerFault _ _ => 2
  | .jobState _ _ _ => 3
  | .tinCall _ _ _ _ => 4
  | .wrongTin _ _ => 5
  | .laneFull _ => 6
  | .tinOut _ _ _ _ => 7
  | .canisterLow _ _ => 8
  | .canisterWait _ _ _ _ => 9
  | .line _ => 10
  | .start _ _ => 11

/-- The content of a notice (R183). -/
def noticeContent : Notice → Bytes
  | .guard g => [codeGuard g]
  | .mixerFault m t => codeMixer m :: optional 3 encTin t
  | .jobState h st c => encHandle h ++ [codeJobState st, codeCause c]
  | .tinCall h i cls base => encHandle h ++ [byte i] ++ cls ++ base
  | .wrongTin cls base => cls ++ base
  | .laneFull x => [codeLane (some x)]
  | .tinOut h i x m => encHandle h ++ [byte i, codeLane (some x), codeMarks m]
  | .canisterLow p v => byte p.val :: be 4 v
  | .canisterWait p h k v => [byte p.val] ++ encHandle h ++ be 4 k ++ be 8 v
  | .line m => [codeLineMode m]
  | .start d m => [byte d, codeLineMode m]

/-- The notice record: kind code, level, content length, content (R183). -/
def noticeRecord (n : Notice) : Bytes :=
  [codeNotice n, byte n.level, byte (noticeContent n).length] ++ noticeContent n

/-- The label record, 69 bytes (R186). -/
def Label.bytes (l : Label) : Bytes :=
  l.orderRef ++ l.colour ++ encHandle l.handle ++ [byte l.index, byte l.count] ++ l.cls ++ l.base ++
    [byte l.lotCodes.length] ++ places 6 3 id l.lotCodes ++ [codeMarks l.marks] ++
    optional 4 (be 4) l.expected ++ optional 4 be4signed l.net ++ [codeWord l.word]

end Sys2Proof.Machine
end

