-- ==== Sys2Proof/Machine/JobCommands.lean ====
section
/-! DEFINITION. The job requests: SUBMIT, CANCEL, RESUME, RETIRE, READ-JOB and READ-TIN (R58 to R80). -/

namespace Sys2Proof.Machine

/-! ### SUBMIT: the record it would write -/

/-- The component record a SUBMIT entry would write (R20, R61): position, target, q_snap and lot snapshot as the
canister stands, nothing reserved. -/
def newComponent (s : State) (vref vtin : Nat) (e : CompEntry) : Component :=
  let p := (s.posOfCode e.code).getD 0
  let c := (s.can p).kept
  let d := (parseAmount e.amount).getD 0
  let a := normalise d e.scale
  let x := exactTarget a vtin
  { pos := p, code := e.code, amount := e.amount, scale := e.scale, a := a, exact := x, qSnap := c.q, cum := 0
    substep := isSubstep d a x (stepDivisor c.q vref), lotSnap := c.lot, reserved := 0, lotBreak := false }

/-- A result entry at admission (R65). -/
def newResult (i : Nat) : TinResult :=
  { index := i, outcome := .pending, attempts := 0, steps := none, expected := none, net := none
    marks := none, lane := none }

/-- The tin class with a code (R81). -/
def State.classOf (s : State) (code : Text) : Option TinClass := s.classes.find? fun c => c.code == code

/-- The job record a SUBMIT from port `p` would write (R61, R72), before the reservation unit has placed it. -/
def newJob (s : State) (p : Port) (r : SubmitBody) : Job :=
  let vtin := ((s.classOf r.cls).map (·.fill)).getD 0
  { owner := p, orderRef := r.orderRef, colour := r.colour, base := r.base, cls := r.cls, vref := r.vref
    n := r.n, comps := r.comps.map (newComponent s r.vref vtin)
    dSubstep := dispositionOf r.dSubstep, dWeighOut := dispositionOf r.dWeighOut
    dWeighNone := dispositionOf r.dWeighNone, dLotBreak := dispositionOf r.dLotBreak
    shortage := shortageOf r.shortage, state := .waitingStock, counted := 0, started := 0, delivered := 0
    expiries := 0, pendingRe := none, cause := none
    results := (List.range r.n).map fun i => newResult (i + 1) }

/-- The needs of a job's components, S(n) each (R10). -/
def Job.needs (j : Job) : List Nat := j.comps.map j.need

/-- The sum of the exact targets of a job's components (R13). -/
def Job.targetSum (j : Job) : Nat := (j.comps.map (·.exact)).sum

/-- The lowest-numbered empty slot (R58). -/
def State.emptySlot (s : State) : Option (Fin 24) := allSlots.find? fun i => (s.slot i).job.isNone

/-! ### SUBMIT: its checks -/

/-- FORMAT of the component entries, in formula order: a colourant code that is not printable, is all spaces
or repeats an earlier one, an amount field that fails R2, a scale above 4 (R71). -/
def formatEntries : Nat → List Text → List CompEntry → Option Nak
  | _, _, [] => none
  | i, earlier, e :: es =>
    if !printable e.code || blankText e.code || earlier.contains e.code || (parseAmount e.amount).isNone ||
        decide (4 < e.scale)
    then some (nakComp .format i)
    else formatEntries (i + 1) (earlier ++ [e.code]) es

/-- RANGE of the normalised amounts, in formula order (R3, R71). -/
def rangeEntries : Nat → List CompEntry → Option Nak
  | _, [] => none
  | i, e :: es =>
    if Config.maxAmount < normalise ((parseAmount e.amount).getD 0) e.scale then some (nakComp .range i)
    else rangeEntries (i + 1) es

/-- NO-COLOURANT, in formula order: a code carried by no installed canister (R1, R71). -/
def colourantEntries (s : State) : Nat → List CompEntry → Option Nak
  | _, [] => none
  | i, e :: es => if (s.posOfCode e.code).isNone then some (nakComp .noColourant i) else colourantEntries s (i + 1) es

/-- SUBSTEP under STOP names the first substep component (R14, R72). -/
def substepRefusal (j : Job) : Option Nak :=
  match j.dSubstep, j.comps.findIdx? (·.substep) with
  | .stop, some i => some (nakComp .substep (i + 1))
  | _, _ => none

/-- The headroom of a job's class, in mL (R13). -/
def State.headroomOf (s : State) (code : Text) : Nat := ((s.classOf code).map (·.headroom)).getD 0

/-- SHORT under REFUSE carries the position, its free volume, the need in nL and whether its wait list is not
empty (R47, R179). -/
def shortRefusal (s : State) (j : Job) : Option Nak :=
  match j.shortage, s.admissionShort j.needs j.comps with
  | .refuse, some (p, k) =>
    some ⟨.short, 0, 0,
      [byte p.val] ++ be 4 (s.freeVol p) ++ be 8 (s.volume p k) ++ [flag !(s.waitList p).isEmpty]⟩
  | _, _ => none

/-- The FORMAT checks of SUBMIT (R71, R177): the component count and the length it declares first, then the
fields in body order and the components in formula order (DEDUCED, log entry 11: unsafe). -/
def submitFormat (b : Bytes) : Option Nak :=
  let r := submitBody b
  firstRefusal
    [ refuseIf (decide (43 ≤ b.length) && (decide (u8 b 42 = 0) || decide (6 < u8 b 42))) (nakField .format 12),
      refuseIf (decide (b.length ≠ 43 + 11 * u8 b 42)) (nak .format),
      refuseIf (!printable r.orderRef) (nakField .format 1),
      refuseIf (!printable r.colour) (nakField .format 2),
      refuseIf (!printable r.base) (nakField .format 3),
      refuseIf (!printable r.cls) (nakField .format 4),
      refuseIf (decide (1 < r.dSubstep)) (nakField .format 7),
      refuseIf (decide (1 < r.dWeighOut)) (nakField .format 8),
      refuseIf (decide (1 < r.dWeighNone)) (nakField .format 9),
      refuseIf (decide (1 < r.dLotBreak)) (nakField .format 10),
      refuseIf (decide (1 < r.shortage)) (nakField .format 11),
      formatEntries 1 [] r.comps ]

/-- The checks of SUBMIT in order (R71, R72). NO-CLASS names field 4 (DEDUCED, log entry 10: unsafe). -/
def submitRefusal (p : Port) (b : Bytes) (s : State) : Option Nak :=
  let r := submitBody b
  let j := newJob s p r
  firstRefusal
    [ submitFormat b,
      refuseIf (!Config.vrefRange.has r.vref) (nakField .range 5),
      refuseIf (!Config.tinCountRange.has r.n) (nakField .range 6),
      rangeEntries 1 r.comps,
      refuseIf (s.classOf r.cls).isNone ⟨.noClass, 4, 0, r.cls⟩,
      colourantEntries s 1 r.comps,
      substepRefusal j,
      refuseIf (!fitsHeadroom j.targetSum (s.headroomOf r.cls) r.vref)
        ⟨.overfill, 0, 0, be 8 (overfillTotal j.targetSum r.vref) ++ be 4 (s.headroomOf r.cls * 1000000)⟩,
      refuseIf s.emptySlot.isNone (nak .tableFull),
      refuseIf (decide (s.freeEntries < r.n)) ⟨.poolFull, 0, 0, be 2 s.freeEntries⟩,
      shortRefusal s j ]

/-! ### SUBMIT: its effect -/

/-- Admits a job under a handle: READY with its needs reserved and at the tail of the queue, or WAITING-STOCK at
the tail of the first short canister's wait list (R47, R72). A wake follows the JOB-STATE (R149; DEDUCED, log entry 45:
unsafe). -/
def State.admitJob (s : State) (h : Handle) (j : Job) : State :=
  match s.admissionShort j.needs j.comps with
  | none =>
    (((s.setSlot h.slot
      { gen := h.gen
        job := some { j with state := .ready, comps := addReserved j.needs j.comps } }).joinQueue h).notifyJob h
      .admitted).wake
  | some (p, k) =>
    let s1 := s.setSlot h.slot { gen := h.gen, job := some { j with state := .waitingStock } }
    ((s1.setWait p (s1.waitList p ++ [h])).notifyWait p h k).notifyJob h .stockWait

/-- The content of SUBMIT's OK answer: handle, state, and the wait list joined (R180). -/
def submitContent (s : State) (h : Handle) (j : Job) : Bytes :=
  match s.admissionShort j.needs j.comps with
  | none => encHandle h ++ [codeJobState .ready] ++ optional 1 (fun p : Pos => [byte p.val]) none
  | some (p, _) => encHandle h ++ [codeJobState .waitingStock] ++ optional 1 (fun p : Pos => [byte p.val]) (some p)

/-- SUBMIT taken: admission in the lowest empty slot, and the selection that ends the event (R72, R85). -/
def submitEffect (p : Port) (b : Bytes) (s : State) : State × Bytes :=
  match s.emptySlot with
  | none => (s, [])
  | some i =>
    let h : Handle := ⟨i, (s.slot i).gen⟩
    let j := newJob s p (submitBody b)
    ((s.admitJob h j).select, submitContent s h j)

/-- SUBMIT (R71, R72). -/
def execSubmit (p : Port) (tag : Byte) (body : Bytes) (s : State) : Host.Outcome State Fault Refusal :=
  .next (s.take p .submit tag body (submitRefusal p body) (submitEffect p body))

/-! ### Requests that name a job -/

/-- The checks every request naming a job begins with (R59, R60): length, RANGE of the handle and of further
fields, NO-JOB, NOT-OWNER. That RANGE names the handle, field 1, is DEDUCED (log entry 47: unsafe), and so is the
order of the RANGE checks and NO-JOB (log entry 43: unsafe). -/
def jobChecks (p : Port) (b : Bytes) (len : Nat) (ranges : List (Option Nak)) (s : State) : List (Option Nak) :=
  [refuseIf (decide (b.length ≠ len)) (nak .format),
    refuseIf (decide (23 < u8 b 0) || decide (u8 b 1 = 0)) (nakField .range 1)] ++ ranges ++
  [refuseIf (s.job? (handleOf b 0)).isNone (nak .noJob),
    refuseIf (p != .w && ((s.job? (handleOf b 0)).map (·.owner)) != some p) (nak .notOwner)]

/-- STATE unless the named job's state meets a condition (R60). -/
def stateCheck (b : Bytes) (s : State) (ok : JobState → Bool) : Option Nak :=
  match s.job? (handleOf b 0) with
  | some j => refuseIf (!ok j.state) (nak .state)
  | none => none

/-! ### CANCEL -/

/-- The states CANCEL is taken in (R74). -/
def JobState.cancellable : JobState → Bool
  | .waitingStock => true
  | .ready => true
  | .active => true
  | .suspended => true
  | .cancelling => false
  | .done => false
  | .cancelled => false

/-- The entries of a job that are still PENDING (R74). -/
def Job.pendingCount (j : Job) : Nat := (j.results.filter fun e => e.outcome == .pending).length

/-- Every entry still PENDING becomes NOT-MADE (R65, R74). -/
def Job.notMade (j : Job) : Job :=
  { j with results := j.results.map fun e => if e.outcome == .pending then { e with outcome := .notMade } else e }

/-- The called tin of a cancelled job is no longer called (R92). -/
def State.dropCall (s : State) (h : Handle) : State := if s.called h then s.withdrawCall else s

/-- The undecided station tin of a cancelled job is turned to REJECT, and its tins started falls by 1 (R75). -/
def State.dropTin (s : State) (h : Handle) : State :=
  match s.tin with
  | some t =>
    if t.handle = h ∧ s.undecided t then
      (s.modJob h fun j => { j with started := j.started - 1 }).cancelTin
    else s
  | none => s

/-- Steps 1 to 4 of CANCEL (R74): entries, queue and call, claim, station tin. -/
def State.cancelWork (s : State) (h : Handle) : State :=
  (((((s.modJob h Job.notMade).leaveQueue h).dropCall h).releaseClaim h).dropTin h)

/-- The state CANCEL leaves a job in (R74). -/
def State.cancelState (s : State) (h : Handle) : JobState :=
  if s.tinCount h = 0 then .cancelled else .cancelling

/-- CANCEL taken: the seven steps of R74, then the walks the release starts, then the selection. The park condition is
examined after the steps and before the walks (DEDUCED, log entry 18: unsafe). -/
def State.cancelJob (s : State) (h : Handle) (j : Job) : State × Bytes :=
  let s1 := s.cancelWork h
  let st := s1.cancelState h
  let s2 := ((s1.modJob h fun j => { j with state := st, cause := none }).notifyJob h .cancelled).examinePark
  ((s2.walkAll (s.releasedPositions h (s.waitPos? h) 0 j.comps)).selectAfter s,
    [codeJobState st, byte j.pendingCount, byte (s1.tinCount h)])

/-- The checks of CANCEL (R60, R74). -/
def cancelRefusal (p : Port) (b : Bytes) (s : State) : Option Nak :=
  firstRefusal (jobChecks p b 2 [] s ++ [stateCheck b s JobState.cancellable])

/-- CANCEL taken, on the job its body names. -/
def cancelEffect (b : Bytes) (s : State) : State × Bytes :=
  match s.job? (handleOf b 0) with
  | some j => s.cancelJob (handleOf b 0) j
  | none => (s, [])

/-- CANCEL (R74). -/
def execCancel (p : Port) (tag : Byte) (body : Bytes) (s : State) : Host.Outcome State Fault Refusal :=
  .next (s.take p .cancel tag body (cancelRefusal p body) (cancelEffect body))

/-! ### RESUME -/

/-- What RESUME does by suspension cause, before the job leaves SUSPENDED (R77): after LOT-STOP it rewrites the
differing snapshots and sets their marks; after any cause the expiry count returns to 0. -/
def Job.resumed (s : State) (j : Job) : Job :=
  { j with
    comps := if j.cause == some .lotStop then j.comps.map s.markLot else j.comps
    expiries := 0
    cause := none }

/-- The re-reservation a RESUME tries: after WEIGH-STOP and WEIGH-NONE-STOP only (R54, R77). -/
def State.resumeReserve (s : State) (h : Handle) (cause : Option Cause) : State × Option Pos :=
  if cause == some .weighStop || cause == some .weighNoneStop then s.retryReserve h else (s, none)

/-- RESUME taken (R77): the job becomes READY, ACTIVE or WAITING-STOCK, JOB-STATE with cause RESUMED goes to the
owner, a READY job then wakes the line (in this order, DEDUCED, log entry 45: unsafe), and a selection ends the event. -/
def State.resumeJob (s : State) (h : Handle) (j : Job) : State × Bytes :=
  let r := (s.modJob h (Job.resumed s)).resumeReserve h j.cause
  let st := match r.2 with
    | some _ => .waitingStock
    | none => r.1.liveState h
  let s2 := (r.1.modJob h fun j => { j with state := st }).notifyJob h .resumed
  ((s2.wakeIf (st == .ready)).selectAfter s,
    [codeJobState st] ++ optional 1 (fun p : Pos => [byte p.val]) r.2)

/-- The checks of RESUME (R60, R77). -/
def resumeRefusal (p : Port) (b : Bytes) (s : State) : Option Nak :=
  firstRefusal (jobChecks p b 2 [] s ++ [stateCheck b s fun st => st == .suspended])

/-- RESUME taken, on the job its body names. -/
def resumeEffect (b : Bytes) (s : State) : State × Bytes :=
  match s.job? (handleOf b 0) with
  | some j => s.resumeJob (handleOf b 0) j
  | none => (s, [])

/-- RESUME (R77). -/
def execResume (p : Port) (tag : Byte) (body : Bytes) (s : State) : Host.Outcome State Fault Refusal :=
  .next (s.take p .resume tag body (resumeRefusal p body) (resumeEffect body))

/-! ### RETIRE and the reading requests -/

/-- The generation after a job has been freed: 1 follows 255 (R58). -/
def nextGen (g : Nat) : Nat := if g < 255 then g + 1 else 1

/-- Frees a slot: its job and result entries go, its generation advances (R58, R78). -/
def State.freeSlot (s : State) (i : Fin 24) : State :=
  s.setSlot i { gen := nextGen (s.slot i).gen, job := none }

/-- A final state (R69, R74). -/
def JobState.final : JobState → Bool
  | .done => true
  | .cancelled => true
  | _ => false

/-- The checks of RETIRE (R60, R78). -/
def retireRefusal (p : Port) (b : Bytes) (s : State) : Option Nak :=
  firstRefusal (jobChecks p b 2 [] s ++ [stateCheck b s JobState.final])

/-- RETIRE taken: the slot is freed (R78). -/
def retireEffect (b : Bytes) (s : State) : State × Bytes :=
  (s.freeSlot (handleOf b 0).slot, encHandle (handleOf b 0))

/-- RETIRE (R78). -/
def execRetire (p : Port) (tag : Byte) (body : Bytes) (s : State) : Host.Outcome State Fault Refusal :=
  .next (s.take p .retire tag body (retireRefusal p body) (retireEffect body))

/-- A field of a READ-JOB or READ-TIN body above a figure of the named job (R60); RANGE names it, field 2 (DEDUCED, log
entry 47: unsafe). -/
def indexCheck (b : Bytes) (s : State) (limit : Job → Nat) : Option Nak :=
  match s.job? (handleOf b 0) with
  | some j => refuseIf (decide (limit j < u8 b 2)) (nakField .range 2)
  | none => none

/-- The checks of READ-JOB (R60, R79). RANGE names the part, field 2 (DEDUCED, log entry 47: unsafe). -/
def readJobRefusal (p : Port) (b : Bytes) (s : State) : Option Nak :=
  firstRefusal (jobChecks p b 3 [refuseIf (decide (6 < u8 b 2)) (nakField .range 2)] s ++
    [indexCheck b s fun j => j.comps.length])

/-- The part a READ-JOB names (R79, R181). -/
def readJobContent (b : Bytes) (s : State) : Bytes :=
  match s.job? (handleOf b 0) with
  | none => []
  | some j =>
    if u8 b 2 = 0 then jobPart0 s (handleOf b 0) j
    else
      match j.comps[u8 b 2 - 1]? with
      | some c => jobPart j (u8 b 2) c
      | none => []

/-- READ-JOB changes nothing (R79). -/
def execReadJob (p : Port) (tag : Byte) (body : Bytes) (s : State) : Host.Outcome State Fault Refusal :=
  .next (s.take p .readJob tag body (readJobRefusal p body) fun s => (s, readJobContent body s))

/-- The checks of READ-TIN (R60, R80). RANGE names the index, field 2 (DEDUCED, log entry 47: unsafe). -/
def readTinRefusal (p : Port) (b : Bytes) (s : State) : Option Nak :=
  firstRefusal (jobChecks p b 3 [refuseIf (decide (u8 b 2 = 0)) (nakField .range 2)] s ++
    [indexCheck b s fun j => j.n])

/-- The entry a READ-TIN names (R80, R185). -/
def readTinContent (b : Bytes) (s : State) : Bytes :=
  match s.job? (handleOf b 0) with
  | none => []
  | some j =>
    match j.results[u8 b 2 - 1]? with
    | some e => tinEntry s (handleOf b 0) j e
    | none => []

/-- READ-TIN changes nothing (R80). -/
def execReadTin (p : Port) (tag : Byte) (body : Bytes) (s : State) : Host.Outcome State Fault Refusal :=
  .next (s.take p .readTin tag body (readTinRefusal p body) fun s => (s, readTinContent body s))

end Sys2Proof.Machine
end

