-- ==== Sys2Proof/Machine/LineCommands.lean ====
section
/-! DEFINITION. The tin class and line requests: SET-TIN-CLASS, SET-LINE, LINE-MODE, RESUME-LINE and
MIXER-RETURN (R82, R134, R147, R152, R153). -/

namespace Sys2Proof.Machine

/-! ### SET-TIN-CLASS -/

/-- The class code of a SET-TIN-CLASS body (R178). -/
def bodyClass (b : Bytes) : Text := textAt b 1 2

/-- The class table holds a class with the code. -/
def State.hasClass (s : State) (code : Text) : Bool := s.classes.any fun c => c.code == code

/-- A job not in DONE or CANCELLED names the class (R82). -/
def State.classNamed (s : State) (code : Text) : Bool :=
  s.jobs.any fun x => x.2.state != .done && x.2.state != .cancelled && x.2.cls == code

/-- The code of the DELETE operation (R187); a SET-TIN-CLASS frame with any other operation byte is the SET
row's (DEDUCED, log entry 5: safe). -/
def isDelete (b : Bytes) : Bool := b.head? == some 1

/-- FORMAT of the class code (R82), which it names, two spaces too (DEDUCED, log entry 9: unsafe). -/
def classCodeCheck (b : Bytes) : Option Nak :=
  refuseIf (!printable (bodyClass b) || blankText (bodyClass b)) (nakField .format 2)

/-- RANGE of the three values of a SET, in body order (R81, R82). -/
def classRange (c : TinClass) : Option Nak :=
  firstRefusal
    [ refuseIf (!Config.fillRange.has c.fill) (nakField .range 3),
      refuseIf (!Config.headroomRange.has c.headroom) (nakField .range 4),
      refuseIf (!Config.mixTimeRange.has c.mixTime) (nakField .range 5) ]

/-- The checks of a SET (R82). An undefined operation is named before the length, which it decides (DEDUCED, log entry
43: unsafe). -/
def setClassRefusal (b : Bytes) (s : State) : Option Nak :=
  let code := bodyClass b
  firstRefusal
    [ refuseIf (!b.isEmpty && decide (u8 b 0 ≠ 0)) (nakField .format 1),
      refuseIf (decide (b.length ≠ 9)) (nak .format),
      classCodeCheck b,
      classRange (tinClassBody b),
      refuseIf (s.hasClass code && s.classNamed code) (nak .covered),
      refuseIf (!s.hasClass code && decide (Config.maxClasses ≤ s.classes.length)) (nak .tableFull) ]

/-- Writes the stored copy of a class (R82, R155). -/
def Store.putClass (st : Store) (c : TinClass) : Store :=
  { st with
    classes :=
      if st.classes.any fun x => x.data.code == c.code then
        st.classes.map fun x => if x.data.code == c.code then ⟨c, true⟩ else x
      else st.classes ++ [⟨c, true⟩] }

/-- Erases the stored copy of a class (R82). -/
def Store.dropClass (st : Store) (code : Text) : Store :=
  { st with classes := st.classes.filter fun x => x.data.code != code }

/-- SET taken: an addition, or a replacement of all three values (R82). -/
def setClassEffect (b : Bytes) (s : State) : State × Bytes :=
  let c := tinClassBody b
  let held := s.hasClass c.code
  let l := if held then s.classes.map fun x => if x.code == c.code then c else x else s.classes ++ [c]
  ({ s with classes := l, store := s.store.putClass c },
    c.code ++ [if held then 2 else 1, byte l.length])

/-- SET-TIN-CLASS with operation SET (R82). -/
def execSetTinClassSet (p : Port) (tag : Byte) (body : Bytes) (s : State) :
    Host.Outcome State Fault Refusal :=
  .next (if isDelete body then s
    else s.take p .setTinClass tag body (setClassRefusal body) (setClassEffect body))

/-- The checks of a DELETE (R82), the length before the code (DEDUCED, log entry 43: unsafe). -/
def deleteClassRefusal (b : Bytes) (s : State) : Option Nak :=
  let code := bodyClass b
  firstRefusal
    [ refuseIf (decide (b.length ≠ 3)) (nak .format),
      classCodeCheck b,
      refuseIf (!s.hasClass code) ⟨.noClass, 0, 0, code⟩,
      refuseIf (s.classNamed code) (nak .covered) ]

/-- DELETE taken (R82). -/
def deleteClassEffect (b : Bytes) (s : State) : State × Bytes :=
  let code := bodyClass b
  let l := s.classes.filter fun c => c.code != code
  ({ s with classes := l, store := s.store.dropClass code }, code ++ [3, byte l.length])

/-- SET-TIN-CLASS with operation DELETE (R82). -/
def execSetTinClassDelete (p : Port) (tag : Byte) (body : Bytes) (s : State) :
    Host.Outcome State Fault Refusal :=
  .next (if isDelete body then
    s.take p .setTinClass tag body (deleteClassRefusal body) (deleteClassEffect body) else s)

/-! ### SET-LINE -/

/-- The checks of SET-LINE (R153). -/
def setLineRefusal (b : Bytes) (_s : State) : Option Nak :=
  firstRefusal [refuseIf (decide (b.length ≠ 10)) (nak .format)]

/-- SET-LINE taken: the clamped values replace those in force, are stored if any has changed, and a raised tin
quota is followed by a selection (R153, R85). -/
def setLineEffect (b : Bytes) (s : State) : State × Bytes :=
  let v := (settingsBody b).clamp
  let old := s.line.settings
  let s1 := { s with
    line := { s.line with settings := v }
    store := if v = old then s.store else { s.store with settings := some ⟨v, true⟩ } }
  (if old.quota < v.quota then s1.select else s1, encSettings v)

/-- SET-LINE (R153). -/
def execSetLine (p : Port) (tag : Byte) (body : Bytes) (s : State) : Host.Outcome State Fault Refusal :=
  .next (s.take p .setLine tag body (setLineRefusal body) (setLineEffect body))

/-! ### LINE-MODE -/

/-- The code of the WAKE operation (R187); a LINE-MODE frame with any other operation byte is the PARK row's
(DEDUCED, log entry 5: safe). -/
def isWake (b : Bytes) : Bool := b.head? == some 1

/-- The checks of LINE-MODE (R147), the length before the operation (DEDUCED, log entry 43: unsafe). -/
def lineModeRefusal (b : Bytes) (s : State) : Option Nak :=
  firstRefusal
    [ refuseIf (decide (b.length ≠ 1)) (nak .format),
      refuseIf (decide (1 < u8 b 0)) (nakField .format 1),
      refuseIf s.halted (nak .state) ]

/-- PARK by the mode (R147): in RUN the line becomes PARKED or PARKING, otherwise nothing changes. -/
def State.park (s : State) : State :=
  if s.line.mode = .run then
    if s.parkCondition then s.setMode .parked else s.setMode .parking
  else s

/-- PARK taken; the selection that follows in its event still calls, since PARKING permits calls (R147). The
answer's mode is the one before that selection (DEDUCED, log entry 25: unsafe). -/
def parkEffect (s : State) : State × Bytes := (s.park.select, [codeLineMode s.park.line.mode])

/-- LINE-MODE with operation PARK (R147). -/
def execLineModePark (p : Port) (tag : Byte) (body : Bytes) (s : State) : Host.Outcome State Fault Refusal :=
  .next (if isWake body then s else s.take p .lineMode tag body (lineModeRefusal body) parkEffect)

/-- WAKE taken: a PARKING or PARKED line becomes RUN (R147), and a selection follows (R85). -/
def wakeEffect (s : State) : State × Bytes := (s.wake.select, [codeLineMode s.wake.line.mode])

/-- LINE-MODE with operation WAKE (R147). -/
def execLineModeWake (p : Port) (tag : Byte) (body : Bytes) (s : State) : Host.Outcome State Fault Refusal :=
  .next (if isWake body then s.take p .lineMode tag body (lineModeRefusal body) wakeEffect else s)

/-! ### RESUME-LINE -/

/-- The checks of RESUME-LINE (R152). -/
def resumeLineRefusal (b : Bytes) (s : State) : Option Nak :=
  firstRefusal
    [ refuseIf (decide (b.length ≠ 0)) (nak .format),
      refuseIf (s.halted && s.line.guard != some .closed) (nak .state) ]

/-- The weigh unit retakes the tare of a tin in TARING (R116, R120). -/
def State.retare (s : State) : State := if s.station = .taring then s.startTare else s

/-- The line leaves HALTED for RUN (R152): LINE to all ports, restored recirculations, a fresh tare, mix timers
from full and the transfer conditions, the lidder, and the selection. The order is that of the table after R152
(DEDUCED, log entry 20: unsafe). -/
def State.leaveHalted (s : State) : State :=
  (((((allPos.foldl State.examineRecirc (s.setMode .run)).retare.remix .m1).remix
    .m2).examineTransfer).relid).select

/-- RESUME-LINE taken: a line that is not HALTED keeps its mode (R152). -/
def resumeLineEffect (s : State) : State × Bytes :=
  if s.halted then (s.leaveHalted, [codeLineMode .run]) else (s, [codeLineMode s.line.mode])

/-- RESUME-LINE (R152). -/
def execResumeLine (p : Port) (tag : Byte) (body : Bytes) (s : State) : Host.Outcome State Fault Refusal :=
  .next (s.take p .resumeLine tag body (resumeLineRefusal body) resumeLineEffect)

/-! ### MIXER-RETURN -/

/-- The mixer a MIXER-RETURN body names, once it has passed the FORMAT check (R134, R187). -/
def bodyMixer (b : Bytes) : MixerId := if u8 b 0 = 1 then .m1 else .m2

/-- The checks of MIXER-RETURN (R134), the length before the mixer (DEDUCED, log entry 43: unsafe). -/
def mixerReturnRefusal (b : Bytes) (s : State) : Option Nak :=
  firstRefusal
    [ refuseIf (decide (b.length ≠ 1)) (nak .format),
      refuseIf (decide (u8 b 0 ≠ 1) && decide (u8 b 0 ≠ 2)) (nakField .format 1),
      refuseIf ((s.mixer (bodyMixer b)).state != .out) (nak .state) ]

/-- MIXER-RETURN taken: an empty mixer becomes IDLE and the transfer conditions are examined; one holding a tin
mixes it again from full (R134). The answer for an empty mixer carries IDLE, also when TRANSFER is sent to it in
this event (DEDUCED, log entry 41: unsafe). -/
def mixerReturnEffect (b : Bytes) (s : State) : State × Bytes :=
  let m := bodyMixer b
  match (s.mixer m).tin with
  | none => ((s.setMixer m Mixer.idle).examineTransfer, [codeMixer m, codeMixState .idle])
  | some t =>
    (s.setMixer m
      { state := .mixing, tin := some { t with stage := .mixing }, expected := none
        timer := s.mixTimer t.handle }, [codeMixer m, codeMixState .mixing])

/-- MIXER-RETURN (R134). -/
def execMixerReturn (p : Port) (tag : Byte) (body : Bytes) (s : State) : Host.Outcome State Fault Refusal :=
  .next (s.take p .mixerReturn tag body (mixerReturnRefusal body) (mixerReturnEffect body))

end Sys2Proof.Machine
end

