-- ==== Sys2Proof/Machine/LineEvents.lean ====
section
/-! DEFINITION. The events of the mixers, the lidder, the lane sensors and the guard, and of the call and mix
timers (R91, R131 to R144, R150, R151). -/

namespace Sys2Proof.Machine

/-! ### Mixers -/

/-- A LOADED: a mixer in LOADING takes the station tin, mixes it, and the station returns to IDLE (R131). -/
def State.loaded (s : State) (m : MixerId) : State :=
  match (s.mixer m).state, s.tin with
  | .loading, some t =>
    ((s.setMixer m
      { state := .mixing, tin := some { t with stage := .mixing }, expected := none
        timer := s.mixTimer t.handle }).stationLeaves).select
  | _, _ => s

/-- LOADED (R131). -/
def execLoaded (m : MixerId) (s : State) : Host.Outcome State Fault Refusal :=
  .next (s.whenActive fun s => s.loaded m)

/-- A mixer leaves the claim list (R133). -/
def State.leaveClaims (s : State) (m : MixerId) : State :=
  { s with lidder := { s.lidder with claims := s.lidder.claims.filter (· != mixerSource m) } }

/-- A mixer goes OUT, holding the tin it holds or none, and MIXER-FAULT goes to every port (R133). -/
def State.goOut (s : State) (m : MixerId) : State :=
  (s.setMixer m { state := .out, tin := (s.mixer m).tin, expected := none, timer := none }).notifyAll
    (.mixerFault m ((s.mixer m).tin.map fun t => (t.handle, t.index)))

/-- A CLAMP-FAULT, by the state of the mixer (R133). A mixer that leaves the claim list lets the lidder take
its next claimant (DEDUCED, log entry 30: unsafe). -/
def State.clampFault (s : State) (m : MixerId) : State :=
  match (s.mixer m).state with
  | .idle => s.goOut m
  | .loading => (s.goOut m).examineTransfer
  | .mixing => s.goOut m
  | .holding => (((s.leaveClaims m).goOut m).examineLidder).select
  | .out => s

/-- CLAMP_FAULT (R133). -/
def execClampFault (m : MixerId) (s : State) : Host.Outcome State Fault Refusal :=
  .next (s.whenActive fun s => s.clampFault m)

/-- The mix timer of a MIXING mixer expires: the mixer becomes HOLDING and joins the claim list (R132, R137). -/
def State.mixExpiry (s : State) (m : MixerId) : State :=
  let x := s.mixer m
  if x.state == .mixing && x.timer.isSome then
    ((s.setMixer m
      { state := .holding, tin := x.tin.map fun t => { t with stage := .lidWait }, expected := none
        timer := none }).joinClaim (mixerSource m)).select
  else s

/-- MIX_TIMER_EXPIRY (R132). -/
def execMixTimerExpiry (m : MixerId) (s : State) : Host.Outcome State Fault Refusal :=
  .next (s.whenActive fun s => s.mixExpiry m)

/-! ### Lidder and lanes -/

/-- The lidder enters LANE-WAIT with its tin (R140). -/
def Lidder.wait (l : Lidder) : Lidder :=
  { l with state := .laneWait, cmdOut := false, tin := l.tin.map fun t => { t with stage := .laneWait } }

/-- The lidder waits for room on its lane, and one LANE-FULL goes to each port the lane concerns (R140, R144). -/
def State.laneWait (s : State) (x : Lane) : State :=
  ({ s with lidder := s.lidder.wait }).notifyEach (lanePorts x) (.laneFull x)

/-- A LIDDED: taken while LIDDING with the lid command outstanding; the tin is placed if its lane has room, and
waits otherwise (R140). -/
def State.lidded (s : State) : State :=
  match s.lidder.dest with
  | none => s
  | some x =>
    if s.lidder.state == .lidding && s.lidder.cmdOut then
      if s.laneRoom x then (s.placeTin).select else s.laneWait x
    else s

/-- LIDDED (R140). -/
def execLidded (s : State) : Host.Outcome State Fault Refusal := .next (s.whenActive State.lidded)

/-- A TIN-TAKEN lowers its lane's count, 0 staying 0 (R142), and a lidder waiting for that lane examines it
(R140). -/
def State.tinTaken (s : State) (x : Lane) : State :=
  let s1 := { s with lanes := s.lanes.setCount x (s.lanes.count x - 1) }
  if s.lidder.dest = some x then s1.examineLane.select else s1

/-- TIN_TAKEN (R142, R140). -/
def execTinTaken (x : Lane) (s : State) : Host.Outcome State Fault Refusal :=
  .next (s.whenActive fun s => s.tinTaken x)

/-! ### The call timer -/

/-- Suspends the job at its third call expiry in a row (R91). -/
def State.expirySuspend (s : State) (h : Handle) : State :=
  match s.job? h with
  | some j => if j.expiries = Config.expiryLimit then s.suspend h .callExpired else s
  | none => s

/-- The call timer expires while it runs (R91): the call is withdrawn and counted, the job is told, its handle
goes to the tail, a third expiry suspends it, and the park condition and a selection follow. The timer is
paused while the line is HALTED (R90). -/
def State.callExpiry (s : State) : State :=
  match s.call with
  | none => s
  | some c =>
    if s.callTimer.isSome && !s.halted then
      ((((((s.withdrawCall.modJob c.handle fun j => { j with expiries := j.expiries + 1 }).calmJob
        c.handle).rotate c.handle).expirySuspend c.handle).examinePark)).select
    else s

/-- CALL_TIMER_EXPIRY (R91). -/
def execCallTimerExpiry (s : State) : Host.Outcome State Fault Refusal := .next (s.whenActive State.callExpiry)

/-! ### Guard -/

/-- What each block does at the guard opening that halts the line (section 9.2): canisters (R29), head and
weigh unit (R114, R121, R123), mixers (R135), lidder (R141). -/
def State.stopBlocks (s : State) : State :=
  let s1 := { s with
    canisters := mapVec Canister.atGuard s.canisters
    gateOpen := false
    m1 := s.m1.atGuard
    m2 := s.m2.atGuard
    lidder := s.lidder.atGuard }
  s1.guardTin

/-- The guard is opened in RUN, PARKING or PARKED (R150): HALTED with the flag OPEN, HALT to every pump, GUARD
to every port, and the blocks stop. -/
def State.haltLine (s : State) : State :=
  ((({ s with line := { s.line with mode := .halted, guard := some .opened } }).send .halt).notifyAll
    (.guard .opened)).stopBlocks

/-- A guard opening, by the mode and the flag (R150, R151). -/
def State.guardOpened (s : State) : State :=
  if s.halted then
    match s.line.guard with
    | some .closed => ({ s with line := { s.line with guard := some .opened } }).notifyAll (.guard .opened)
    | some .opened => s
    | none => s
  else s.haltLine

/-- GUARD_OPENED (R150, R151). The guard input shows it whether or not the part runs (R158). -/
def execGuardOpened (s : State) : Host.Outcome State Fault Refusal :=
  .next (({ s with guardInput := .opened }).whenActive State.guardOpened)

/-- A guard closing: a HALTED line with the flag OPEN takes the flag CLOSED (R151). -/
def State.guardClosed (s : State) : State :=
  if s.halted && s.line.guard == some .opened then
    ({ s with line := { s.line with guard := some .closed } }).notifyAll (.guard .closed)
  else s

/-- GUARD_CLOSED (R151). The guard input shows it whether or not the part runs (R158). -/
def execGuardClosed (s : State) : Host.Outcome State Fault Refusal :=
  .next (({ s with guardInput := .closed }).whenActive State.guardClosed)

end Sys2Proof.Machine
end

