-- ==== Sys2Proof/Machine/PortEvents.lean ====
section
/-! DEFINITION. The events of the serial ports: bytes and frames received, the gap limit, and answers sent
(R160 to R163). -/

namespace Sys2Proof.Machine

/-- The receiver of a port gets one byte, if the part runs (R160, R156). -/
def State.byteIn (s : State) (p : Port) (b : Byte) : State :=
  s.whenActive fun s => s.setPort p ((s.port p).byteIn b)

/-- A complete frame: the bytes received so far are its first bytes, and the frame is examined (R160, R161).
With other bytes received this frame does not complete (DEDUCED, log entry 6: safe). -/
def PortState.receive (ps : PortState) (kind tag : Byte) (body : Bytes) (crc : BitVec 16) : PortState :=
  if ps.rx.isPrefixOf (frameBytes kind tag body crc) then ps.hunt.examineFrame kind tag body crc else ps

/-- FRAME_RECEIVED (R161, R162). -/
def execFrameReceived (p : Port) (kind tag : Byte) (body : Bytes) (crc : BitVec 16) (s : State) :
    Host.Outcome State Fault Refusal :=
  if bodyFits body then
    .next (s.whenActive fun s => s.setPort p ((s.port p).receive kind tag body crc))
  else .refused (.illFormed "FRAME_RECEIVED")

/-- FRAME_GAP_TIMEOUT: a partial frame is discarded without answer (R160). -/
def execFrameGapTimeout (p : Port) (s : State) : Host.Outcome State Fault Refusal :=
  .next (s.whenActive fun s => s.setPort p (s.port p).hunt)

/-- The answer at the head of the answers out has been sent in full (R163). -/
def State.answerSent (s : State) (p : Port) : State :=
  match (s.port p).out with
  | [] => s
  | a :: rest => (s.setPort p { s.port p with out := rest }).send (.answer p a)

/-- ANSWER_SENT (R163). -/
def execAnswerSent (p : Port) (s : State) : Host.Outcome State Fault Refusal :=
  .next (s.whenActive fun s => s.answerSent p)

/-- FRAME_START_BYTE: a byte 0x7E arrives (R160). -/
def execFrameStartByte (p : Port) (s : State) : Host.Outcome State Fault Refusal := .next (s.byteIn p 0x7E)

/-- LENGTH_BYTE_ABOVE_240: a byte above 240 arrives (R160). -/
def execLengthByteAbove240 (p : Port) (len : Byte) (s : State) : Host.Outcome State Fault Refusal :=
  if Config.maxBody < len.toNat then .next (s.byteIn p len)
  else .refused (.illFormed "LENGTH_BYTE_ABOVE_240")

end Sys2Proof.Machine
end

