-- ==== Sys2Proof/Machine/QueryCommands.lean ====
section
/-! DEFINITION. The queries and the port requests: FIND, STATUS, FETCH-NOTICE and CLEAR-PORT (R169 to R173). -/

namespace Sys2Proof.Machine

/-! ### FIND: fields and values -/

/-- The kinds of FIND field (R171); a code field stands with its lowest and highest code (R187). -/
inductive FieldKind where
  | number
  | text (len : Nat)
  | code (lo hi : Nat)
deriving DecidableEq, Repr

/-- The kind of each FIND field, by its code (R171, R187). -/
def fieldKind : Nat → FieldKind
  | 0 => .number
  | 1 => .number
  | 2 => .number
  | 3 => .text 3
  | 4 => .text 8
  | 5 => .code 1 5
  | 6 => .text 12
  | 7 => .code 1 7
  | 8 => .code 1 3
  | _ => .number

/-- A value FIND compares (R171). -/
inductive FindValue where
  | number (n : Nat)
  | text (t : Text)
  | code (c : Byte)
deriving DecidableEq, Repr

/-- A FIND body (R178). The table, field, condition and direction stand as code bytes. -/
structure FindBody where
  table : Nat
  field : Nat
  cond : Nat
  value : FindValue
  start : Nat
  dir : Nat
deriving DecidableEq, Repr

/-- The comparison value of a body, by the kind of its field: the first four bytes, the first L bytes or the
first byte (R178). -/
def findValue (b : Bytes) : FieldKind → FindValue
  | .number => .number (uN b 3 4)
  | .text len => .text (textAt b 3 len)
  | .code _ _ => .code (b.getD 3 0)

/-- Reads a FIND body. -/
def findBody (b : Bytes) : FindBody :=
  { table := u8 b 0, field := u8 b 1, cond := u8 b 2, value := findValue b (fieldKind (u8 b 1))
    start := u8 b 15, dir := u8 b 16 }

/-- The field belongs to the table (R171). -/
def fieldOfTable (table field : Nat) : Bool :=
  if table = 0 then decide (field ≤ 5) else decide (6 ≤ field) && decide (field ≤ 9)

/-- The comparison value suits the field: printable text, or one of the field's codes (R171). -/
def valueFits : FieldKind → FindValue → Bool
  | .text _, .text t => printable t
  | .code lo hi, .code c => decide (lo ≤ c.toNat) && decide (c.toNat ≤ hi)
  | _, _ => true

/-- The condition suits the field: LT and GE on numbers only (R171). -/
def condFits (k : FieldKind) (cond : Nat) : Bool :=
  decide (cond ≤ 1) || (decide (cond ≤ 3) && k == .number)

/-- The last index of a table. -/
def lastIndex (table : Nat) : Nat := if table = 0 then 15 else 23

/-- The checks of FIND: FORMAT in body order, then RANGE of the start index (R171; the order within FORMAT is DEDUCED,
log entry 12: unsafe; a wrong length before any field, DEDUCED, log entry 43: unsafe; that RANGE names the start index,
field 5, DEDUCED, log entry 47: unsafe). -/
def findRefusal (b : Bytes) (_s : State) : Option Nak :=
  let r := findBody b
  firstRefusal
    [ refuseIf (decide (b.length ≠ 17)) (nak .format),
      refuseIf (decide (1 < r.table)) (nakField .format 1),
      refuseIf (!fieldOfTable r.table r.field) (nakField .format 2),
      refuseIf (!condFits (fieldKind r.field) r.cond) (nakField .format 3),
      refuseIf (!valueFits (fieldKind r.field) r.value) (nakField .format 4),
      refuseIf (decide (1 < r.dir)) (nakField .format 6),
      refuseIf (decide (lastIndex r.table < r.start)) (nakField .range 5) ]

/-- The value of a canister field (R171). -/
def canisterValue (s : State) (field : Nat) (p : Pos) : FindValue :=
  let c := s.can p
  match field with
  | 0 => .number c.kept.level
  | 1 => .number c.kept.usable
  | 2 => .number (s.freeVol p)
  | 3 => .text c.kept.code
  | 4 => .text c.kept.lot
  | _ => .code (codeCanState c.state)

/-- The value of a job field (R171). -/
def jobValue (s : State) (field : Nat) (h : Handle) (j : Job) : FindValue :=
  match field with
  | 6 => .text j.orderRef
  | 7 => .code (codeJobState j.state)
  | 8 => .code (codePort j.owner)
  | _ => .number (s.tinsLeftShown h j)

/-- An entry's value meets a condition (R171). -/
def meets (cond : Nat) (x v : FindValue) : Bool :=
  match cond with
  | 0 => x == v
  | 1 => x != v
  | 2 => match x, v with
    | .number m, .number n => decide (m < n)
    | _, _ => false
  | _ => match x, v with
    | .number m, .number n => decide (n ≤ m)
    | _, _ => false

/-! ### FIND: the scan -/

/-- What a scan finds: the match, if any, the entries examined, and the last entry examined (R172). -/
structure ScanResult (α : Type) where
  found : Option α
  examined : Nat
  last : Option α
deriving DecidableEq, Repr

/-- The scan over entries in order: `value` gives the value of a visible entry (R172). `n` entries have been
examined before, the last of them `last`. -/
def scanFrom {α : Type} (value : α → Option FindValue) (ok : FindValue → Bool) :
    List α → Nat → Option α → ScanResult α
  | [], n, last => { found := none, examined := n, last := last }
  | x :: xs, n, last =>
    match value x with
    | none => scanFrom value ok xs n last
    | some v =>
      if ok v then { found := some x, examined := n + 1, last := some x }
      else scanFrom value ok xs (n + 1) (some x)

/-- The entries of a table from a start index, up or down (R172). -/
def scanOrder {α : Type} (l : List α) (start dir : Nat) : List α :=
  if dir = 0 then l.drop start else (l.take (start + 1)).reverse

/-- The value of a canister entry, if it is visible: the position is installed (R172). -/
def canisterEntry (s : State) (field : Nat) (p : Pos) : Option FindValue :=
  if (s.can p).kept.installed then some (canisterValue s field p) else none

/-- The value of a job entry, if it is visible to the port: the slot is occupied, and for a counter port by a
job it owns (R172). -/
def jobEntry (s : State) (port : Port) (field : Nat) (i : Fin 24) : Option FindValue :=
  match (s.slot i).job with
  | none => none
  | some j =>
    if port = .w ∨ j.owner = port then some (jobValue s field ⟨i, (s.slot i).gen⟩ j) else none

/-- The content of a FIND answer (R172, R180). -/
def scanContent {α : Type} (idx : α → Nat) (summary : α → Bytes) (r : ScanResult α) : Bytes :=
  match r.found with
  | some x => [1, byte (idx x), byte r.examined] ++ summary x
  | none => [0, byte r.examined] ++ optional 1 (fun x => [byte (idx x)]) r.last

/-- The job summary of a slot, as FIND carries it. -/
def slotSummary (s : State) (i : Fin 24) : Bytes :=
  match (s.slot i).job with
  | some j => jobSummary s ⟨i, (s.slot i).gen⟩ j
  | none => []

/-- The content of FIND's OK answer on a port (R172). -/
def findContent (port : Port) (b : Bytes) (s : State) : Bytes :=
  let r := findBody b
  if r.table = 0 then
    scanContent (fun p : Pos => p.val) (canisterSummary s)
      (scanFrom (canisterEntry s r.field) (fun x => meets r.cond x r.value)
        (scanOrder allPos r.start r.dir) 0 none)
  else
    scanContent (fun i : Fin 24 => i.val) (slotSummary s)
      (scanFrom (jobEntry s port r.field) (fun x => meets r.cond x r.value)
        (scanOrder allSlots r.start r.dir) 0 none)

/-- FIND changes nothing (R172). -/
def execFind (p : Port) (tag : Byte) (body : Bytes) (s : State) : Host.Outcome State Fault Refusal :=
  .next (s.take p .find tag body (findRefusal body) fun s => (s, findContent p body s))

/-! ### STATUS, FETCH-NOTICE and CLEAR-PORT -/

/-- FORMAT of a request whose body is empty (R169, R170, R173). -/
def emptyBodyRefusal (b : Bytes) (_s : State) : Option Nak :=
  firstRefusal [refuseIf (decide (b.length ≠ 0)) (nak .format)]

/-- STATUS changes nothing (R173). -/
def execStatus (p : Port) (tag : Byte) (body : Bytes) (s : State) : Host.Outcome State Fault Refusal :=
  .next (s.take p .status tag body (emptyBodyRefusal body) fun s => (s, lineStatus s p))

/-- The content of FETCH-NOTICE's OK answer: presence, lost flag, notices left, and the notice record (R169,
R183). -/
def PortState.fetchContent (ps : PortState) : Bytes :=
  [flag ps.top?.isSome, flag ps.lost, byte ps.fetch.notices.length] ++
    match ps.top? with
    | some n => noticeRecord n
    | none => []

/-- FETCH-NOTICE taken (R169). -/
def fetchEffect (p : Port) (s : State) : State × Bytes :=
  (s.setPort p (s.port p).fetch, (s.port p).fetchContent)

/-- FETCH-NOTICE (R169). -/
def execFetchNotice (p : Port) (tag : Byte) (body : Bytes) (s : State) : Host.Outcome State Fault Refusal :=
  .next (s.take p .fetchNotice tag body (emptyBodyRefusal body) (fetchEffect p))

/-- The slots whose job a port owns in a final state, in slot order (R170). -/
def State.finalSlots (s : State) (p : Port) : List (Fin 24) :=
  allSlots.filter fun i =>
    match (s.slot i).job with
    | some j => j.owner == p && j.state.final
    | none => false

/-- CLEAR-PORT taken: the notices go, the lost mark and the attention line are cleared, and the port's final
jobs are freed (R170). -/
def clearEffect (p : Port) (s : State) : State × Bytes :=
  let l := s.finalSlots p
  (l.foldl State.freeSlot (s.setPort p (s.port p).clear),
    [byte (s.port p).notices.length, byte l.length] ++
      places 24 2 encHandle (l.map fun i => ⟨i, (s.slot i).gen⟩))

/-- CLEAR-PORT (R170). -/
def execClearPort (p : Port) (tag : Byte) (body : Bytes) (s : State) : Host.Outcome State Fault Refusal :=
  .next (s.take p .clearPort tag body (emptyBodyRefusal body) (clearEffect p))

end Sys2Proof.Machine
end

