-- ==== Sys2Proof/Machine/StockCommands.lean ====
section
/-! DEFINITION. The canister requests: INSTALL, REMOVE, CALIBRATE, REFILL-BEGIN, REFILL-END, ADJUST and
READ-CANISTER (R32 to R40). -/

namespace Sys2Proof.Machine

/-- The declared fields of a canister record against their ranges, each with its INSTALL field number (R21,
R178). -/
def declaredChecks (r : CanRecord) : List (Bool × Nat) :=
  [ (Config.capacityRange.has r.capacity, 3),
    (Config.heelRange.has r.heel && decide (r.heel < r.capacity), 4),
    (Config.lowMarkRange.has r.lowMark, 5),
    (Config.stepVolumeRange.has r.q, 6),
    (Config.densityRange.has r.density, 7),
    (Config.strokeRange.has r.stroke, 8),
    (decide (r.pulse = 0) || Config.pulseRange.has r.pulse, 9),
    (Config.dwellRange.has r.dwell, 10),
    (Config.settleLimitRange.has r.settleLimit, 11),
    (Config.recircTimeRange.has r.recircTime, 12),
    (Config.keepStirRange.has r.keepStir, 13) ]

/-- RANGE naming the first field of the list that is outside its range (that it names a field, DEDUCED, log
entry 47, and body order, DEDUCED, log entry 39: unsafe). -/
def rangeRefusal (l : List (Bool × Nat)) : Option Nak :=
  (l.find? fun x => !x.1).map fun x => nakField .range x.2

/-- The position a body names. -/
def bodyPos (b : Bytes) : Pos := posOf (u8 b 0)

/-- RANGE of the position (R32), which it names (DEDUCED, log entry 47: unsafe). -/
def posCheck (b : Bytes) : Option Nak := refuseIf (decide (15 < u8 b 0)) (nakField .range 1)

/-! ### INSTALL -/

/-- The checks of INSTALL (R32, R33). A code of spaces is named (DEDUCED, log entry 9: unsafe). Of several
fields at fault in one check the first in body order is named, the level below the heel last (DEDUCED, log entry 39:
unsafe), a wrong length before any (DEDUCED, log entry 43: unsafe). -/
def installRefusal (b : Bytes) (s : State) : Option Nak :=
  let r := installRecord b
  firstRefusal
    [ refuseIf (decide (b.length ≠ 42)) (nak .format),
      refuseIf (!printable r.code) (nakField .format 2),
      refuseIf (!printable r.lot) (nakField .format 15),
      posCheck b,
      refuseIf ((s.can (bodyPos b)).state != .vacant) (nak .state),
      refuseIf (blankText r.code) (nakField .format 2),
      refuseIf (s.posOfCode r.code).isSome (nak .duplicate),
      rangeRefusal (declaredChecks r ++ [(decide (r.heel ≤ r.level), 14)]) ]

/-- The record as installed: a level above capacity is clamped down to it (R33). -/
def installed (r : CanRecord) : CanRecord := { r with level := min r.level r.capacity }

/-- INSTALL taken (R33). -/
def installEffect (b : Bytes) (s : State) : State × Bytes :=
  let p := bodyPos b
  let r := installed (installRecord b)
  let s1 := (((s.setCan p
    { kept := r, state := .settled, latch := true, demand := false, settleTimer := none, keepTimer := none
      stirrer := false }).setPump p Pump.start).storeCan p).examineLow p
  (s1, [byte p.val] ++ be 2 0 ++ be 4 r.level ++ [flag (s1.can p).latch])

/-- INSTALL (R33). -/
def execInstall (p : Port) (tag : Byte) (body : Bytes) (s : State) : Host.Outcome State Fault Refusal :=
  .next (s.take p .install tag body (installRefusal body) (installEffect body))

/-! ### REMOVE -/

/-- The checks of REMOVE (R32, R34). -/
def removeRefusal (b : Bytes) (s : State) : Option Nak :=
  firstRefusal
    [ refuseIf (decide (b.length ≠ 1)) (nak .format),
      posCheck b,
      refuseIf ((s.can (bodyPos b)).state == .vacant) (nak .state),
      refuseIf (s.named (bodyPos b)) (nak .covered),
      refuseIf ((s.pump (bodyPos b)).state != .idle) (nak .busy) ]

/-- REMOVE taken: the record becomes vacant, its pump record IDLE with charge 0, and the vacant record is
written to the store (R34, R99). -/
def removeEffect (b : Bytes) (s : State) : State × Bytes :=
  let p := bodyPos b
  (((s.setCan p Canister.vacant).setPump p Pump.start).storeCan p, [byte p.val])

/-- REMOVE (R34). -/
def execRemove (p : Port) (tag : Byte) (body : Bytes) (s : State) : Host.Outcome State Fault Refusal :=
  .next (s.take p .remove tag body (removeRefusal body) (removeEffect body))

/-! ### CALIBRATE -/

/-- The checks of CALIBRATE (R32, R35). RANGE names the value at fault (DEDUCED, log entry 47: unsafe), q with both out of
range (DEDUCED, log entry 39: unsafe). -/
def calibrateRefusal (b : Bytes) (s : State) : Option Nak :=
  let p := bodyPos b
  firstRefusal
    [ refuseIf (decide (b.length ≠ 5)) (nak .format),
      posCheck b,
      refuseIf ((s.can p).state == .vacant) (nak .state),
      refuseIf (!Config.stepVolumeRange.has (uN b 1 2)) (nakField .range 2),
      refuseIf (!Config.densityRange.has (uN b 3 2)) (nakField .range 3),
      refuseIf (decide ((s.can p).kept.usable < s.reservedSteps p * uN b 1 2)) (nak .covered) ]

/-- The kept fields after a CALIBRATE (R35). -/
def CanRecord.calibrated (c : CanRecord) (q density : Nat) : CanRecord :=
  { c with q := q, density := density, count := nextCount c.count }

/-- CALIBRATE taken: q and density are replaced, the count rises, the record is stored, and a smaller q starts a
walk (R35). -/
def calibrateEffect (b : Bytes) (s : State) : State × Bytes :=
  let p := bodyPos b
  let c := s.can p
  let s1 := (s.setCan p { c with kept := c.kept.calibrated (uN b 1 2) (uN b 3 2) }).storeCan p
  ((if uN b 1 2 < c.kept.q then s1.walk p else s1).selectAfter s, [byte p.val] ++ be 2 (nextCount c.kept.count))

/-- CALIBRATE (R35). -/
def execCalibrate (p : Port) (tag : Byte) (body : Bytes) (s : State) : Host.Outcome State Fault Refusal :=
  .next (s.take p .calibrate tag body (calibrateRefusal body) (calibrateEffect body))

/-! ### REFILL-BEGIN -/

/-- The called tin has a nonzero step count on a position (R36, R9). -/
def State.calledNeeds (s : State) (p : Pos) : Bool :=
  match s.call with
  | none => false
  | some c =>
    match s.job? c.handle with
    | some j => decide (0 < needOn p j.nextSteps j.comps)
    | none => false

/-- The station tin has steps not yet dispensed on a position: a NORMAL tin in TARING or DISPENSING (R36,
R117). -/
def State.stationNeeds (s : State) (p : Pos) : Bool :=
  match s.tin with
  | none => false
  | some t =>
    t.route == .normal && (s.station == .taring || s.station == .dispensing) &&
      match s.job? t.handle with
      | some j => decide (0 < needOn p (List.zipWith (· - ·) t.steps t.dispensed) j.comps)
      | none => false

/-- The checks of REFILL-BEGIN (R32, R36). -/
def refillBeginRefusal (b : Bytes) (s : State) : Option Nak :=
  let p := bodyPos b
  firstRefusal
    [ refuseIf (decide (b.length ≠ 1)) (nak .format),
      posCheck b,
      refuseIf ((s.can p).state == .vacant || (s.can p).state == .locked) (nak .state),
      refuseIf (s.calledNeeds p || s.stationNeeds p || (s.pump p).state != .idle) (nak .busy) ]

/-- REFILL-BEGIN taken: the canister becomes LOCKED (R36). -/
def refillBeginEffect (b : Bytes) (s : State) : State × Bytes :=
  let p := bodyPos b
  (s.setCan p (s.can p).toLocked, [byte p.val, codeCanState .locked])

/-- REFILL-BEGIN (R36). -/
def execRefillBegin (p : Port) (tag : Byte) (body : Bytes) (s : State) : Host.Outcome State Fault Refusal :=
  .next (s.take p .refillBegin tag body (refillBeginRefusal body) (refillBeginEffect body))

/-! ### REFILL-END -/

/-- The checks of REFILL-END (R32, R37), the length before the lot id (DEDUCED, log entry 43: unsafe). -/
def refillEndRefusal (b : Bytes) (s : State) : Option Nak :=
  firstRefusal
    [ refuseIf (decide (b.length ≠ 13)) (nak .format),
      refuseIf (!printable (textAt b 5 8)) (nakField .format 3),
      posCheck b,
      refuseIf ((s.can (bodyPos b)).state != .locked) (nak .state) ]

/-- The volume a REFILL-END takes: no more than the capacity less the level (R37). -/
def CanRecord.taken (c : CanRecord) (v : Nat) : Nat := min v (c.capacity - c.level)

/-- The kept fields after a REFILL-END (R37, R38). -/
def CanRecord.refilled (c : CanRecord) (v : Nat) (lot : Text) : CanRecord :=
  { c with level := c.level + c.taken v, lot := lot, count := nextCount c.count }

/-- REFILL-END taken: volume, lot, SETTLED, count, latch, store, then a walk (R37), and the selection that an
unlocked canister may allow (R85). -/
def refillEndEffect (b : Bytes) (s : State) : State × Bytes :=
  let p := bodyPos b
  let c := s.can p
  let k := c.kept.refilled (uN b 1 4) (textAt b 5 8)
  let s1 := (s.setCan p ({ c with kept := k }.toSettled.rearm)).storeCan p
  ((s1.walk p).selectAfter s,
    [byte p.val] ++ be 4 (c.kept.taken (uN b 1 4)) ++ be 4 k.level ++ be 2 k.count ++
      [flag (textAt b 5 8 != c.kept.lot)])

/-- REFILL-END (R37). -/
def execRefillEnd (p : Port) (tag : Byte) (body : Bytes) (s : State) : Host.Outcome State Fault Refusal :=
  .next (s.take p .refillEnd tag body (refillEndRefusal body) (refillEndEffect body))

/-! ### ADJUST -/

/-- The checks of ADJUST (R32, R39). RANGE names the level, field 3 (DEDUCED, log entry 47: unsafe). -/
def adjustRefusal (b : Bytes) (s : State) : Option Nak :=
  let p := bodyPos b
  let c := (s.can p).kept
  firstRefusal
    [ refuseIf (decide (b.length ≠ 7)) (nak .format),
      posCheck b,
      refuseIf ((s.can p).state == .vacant) (nak .state),
      refuseIf (decide (uN b 1 2 ≠ c.count)) ⟨.stale, 0, 0, be 2 c.count ++ be 4 c.level⟩,
      refuseIf (decide (uN b 3 4 < c.heel) || decide (c.capacity < uN b 3 4)) (nakField .range 3),
      refuseIf (decide (uN b 3 4 - c.heel < s.reservedVol p)) (nak .covered) ]

/-- The kept fields after an ADJUST (R39). -/
def CanRecord.adjusted (c : CanRecord) (level : Nat) : CanRecord :=
  { c with level := level, count := nextCount c.count }

/-- ADJUST taken: level and count, the store, the latch (examined after a fall, re-armed after a rise), and a
walk if free volume has risen (R39, R31). -/
def adjustEffect (b : Bytes) (s : State) : State × Bytes :=
  let p := bodyPos b
  let c := s.can p
  let v := uN b 3 4
  let s1 := (s.setCan p { c with kept := c.kept.adjusted v }).storeCan p
  let s2 :=
    if v < c.kept.level then s1.examineLow p
    else if c.kept.level < v then (s1.setCan p (s1.can p).rearm).walk p
    else s1
  (s2.selectAfter s, [byte p.val] ++ be 2 (nextCount c.kept.count) ++ be 4 v)

/-- ADJUST (R39). -/
def execAdjust (p : Port) (tag : Byte) (body : Bytes) (s : State) : Host.Outcome State Fault Refusal :=
  .next (s.take p .adjust tag body (adjustRefusal body) (adjustEffect body))

/-! ### READ-CANISTER -/

/-- The checks of READ-CANISTER (R32, R40). -/
def readCanisterRefusal (b : Bytes) (_s : State) : Option Nak :=
  firstRefusal [refuseIf (decide (b.length ≠ 1)) (nak .format), posCheck b]

/-- READ-CANISTER changes nothing (R40). -/
def execReadCanister (p : Port) (tag : Byte) (body : Bytes) (s : State) : Host.Outcome State Fault Refusal :=
  .next (s.take p .readCanister tag body (readCanisterRefusal body) fun s =>
    (s, canisterSummary s (bodyPos body)))

end Sys2Proof.Machine
end

