-- ==== Sys2Proof/Machine/StartEvents.lean ====
section
/-! DEFINITION. RESET, loss of power, and the start of the part from its settings store (R154 to R158). -/

namespace Sys2Proof.Machine

/-! ### Copies left incomplete -/

/-- A stored copy whose write did not finish fails its check at the next start (R155). -/
def Stored.broken {α : Type} (x : Stored α) : Stored α := { x with intact := false }

/-- The store after the named copy was left incomplete, if one was being written (R155). -/
def Store.breakCopy (st : Store) : Option StoreKey → Store
  | none => st
  | some (.canister p) => { st with canisters := st.canisters.set p (st.canisters[p].map Stored.broken) }
  | some (.tinClass code) =>
    { st with classes := st.classes.map fun x => if x.data.code == code then x.broken else x }
  | some .settings => { st with settings := st.settings.map Stored.broken }

/-! ### RESET and loss of power -/

/-- RESET is asserted on a part that runs (R156): the copy being written may be left incomplete, the notice
queues, lost marks and attention lines are cleared, the gate is shut, the stirrers are off. -/
def State.assertReset (s : State) (writing : Option StoreKey) : State :=
  { s with
    power := .reset
    ports := mapVec PortState.clear s.ports
    canisters := mapVec (fun c => { c with stirrer := false }) s.canisters
    gateOpen := false
    store := s.store.breakCopy writing }

/-- RESET_ASSERT (R156, R155). On an inactive part it changes nothing (DEDUCED, log entry 17: safe). -/
def execResetAssert (writing : Option StoreKey) (s : State) : Host.Outcome State Fault Refusal :=
  .next (s.whenActive fun s => s.assertReset writing)

/-- A part without power: of its state only the store is left (R155), with the level of the guard input, which
is the machine's. What is lost stands at its start value, which nothing can read (DESIGN CHOICE,
log entry 14: safe). -/
def State.dark (guard : GuardState) (store : Store) (pending : List Instr) : State :=
  { State.reset with
    power := .off, guardInput := guard, ports := Vector.replicate 4 PortState.start, store := store, sent := []
    pending := pending }

/-- POWER_LOSS (R155). -/
def execPowerLoss (writing : Option StoreKey) (s : State) : Host.Outcome State Fault Refusal :=
  .next (if s.power = .off then s else State.dark s.guardInput (s.store.breakCopy writing) s.pending)

/-! ### Reading the store (R157) -/

/-- The text fields and the count of a canister record are ones the table can hold (R21). -/
def CanRecord.textsFit (r : CanRecord) : Bool :=
  decide (r.code.length = 3) && printable r.code && !blankText r.code && decide (r.lot.length = 8) &&
    printable r.lot && decide (r.count < Config.countModulus)

/-- A stored canister record holds only values in range, or is the vacant record (R21, R157; DEDUCED, log
entry 29: unsafe). -/
def CanRecord.sound (r : CanRecord) : Bool :=
  if r.installed then
    (declaredChecks r).all (·.1) && decide (r.heel ≤ r.level) && decide (r.level ≤ r.capacity) && r.textsFit
  else r == CanRecord.vacant

/-- A stored canister record is taken: its check agrees, its fields are sound, and no lower-numbered position
has taken its colourant code (R157). -/
def Stored.canTaken (codes : List Text) (x : Stored CanRecord) : Bool :=
  x.intact && x.data.sound && !(x.data.installed && codes.contains x.data.code)

/-- Reads the canister records from P0 upward: for each position the record it starts with, and whether a
record was discarded (R157). `codes` are the codes taken so far. -/
def readCans : List Text → List (Option (Stored CanRecord)) → List (CanRecord × Bool)
  | _, [] => []
  | codes, none :: l => (CanRecord.vacant, false) :: readCans codes l
  | codes, some x :: l =>
    if x.canTaken codes then
      (x.data, false) :: readCans (if x.data.installed then x.data.code :: codes else codes) l
    else (CanRecord.vacant, true) :: readCans codes l

/-- A class record holds only values in range (R81). -/
def TinClass.sound (c : TinClass) : Bool :=
  decide (c.code.length = 2) && printable c.code && !blankText c.code && Config.fillRange.has c.fill &&
    Config.headroomRange.has c.headroom && Config.mixTimeRange.has c.mixTime

/-- Reads the class records: those taken, and the count of those discarded (R157). `taken` are those taken so
far. They are read in the order in which the store lists them, so that of two intact copies with one code the first is
taken: R157 gives an order for positions alone (DESIGN CHOICE, log entry 46: unsafe). -/
def readClasses : List TinClass → List (Stored TinClass) → List TinClass × Nat
  | taken, [] => (taken, 0)
  | taken, x :: l =>
    if x.intact && x.data.sound && !(taken.any fun c => c.code == x.data.code) then
      readClasses (taken ++ [x.data]) l
    else
      let r := readClasses taken l
      (r.1, r.2 + 1)

/-- Every setting is in its range (R153). -/
def Settings.sound (v : Settings) : Bool := v == v.clamp

/-- Reads the settings record: the settings in force, and whether a record was discarded (R157). -/
def readSettings : Option (Stored Settings) → Settings × Bool
  | none => (Settings.default, false)
  | some x => if x.intact && x.data.sound then (x.data, false) else (Settings.default, true)

/-! ### Start -/

/-- The sixteen positions as a vector. -/
def posVec : Vector Pos 16 := #v[0, 1, 2, 3, 4, 5, 6, 7, 8, 9, 10, 11, 12, 13, 14, 15]

/-- The record and the discard of a position, as read at start. -/
def Store.startCan (st : Store) (p : Pos) : CanRecord × Bool :=
  (readCans [] st.canisters.toArray.toList).getD p.val (CanRecord.vacant, false)

/-- A canister at start (R42). -/
def CanRecord.start (r : CanRecord) : Canister :=
  { kept := r, state := if r.installed then .settled else .vacant
    latch := r.installed && decide (r.lowMark < r.usable), demand := false, settleTimer := none
    keepTimer := none, stirrer := false }

/-- The store after a start: a vacant record stands in place of a discarded canister record, a discarded class
is erased, and the defaults stand in place of discarded settings (R157). -/
def Store.afterStart (st : Store) : Store :=
  { canisters := mapVec (fun p =>
      if (st.startCan p).2 then some ⟨CanRecord.vacant, true⟩ else st.canisters[p]) posVec
    classes := (readClasses [] st.classes).1.map fun c => ⟨c, true⟩
    settings := if (readSettings st.settings).2 then some ⟨Settings.default, true⟩ else st.settings }

/-- The count of discarded records (R157). -/
def Store.discards (st : Store) : Nat :=
  (allPos.filter fun p => (st.startCan p).2).length + (readClasses [] st.classes).2 +
    (if (readSettings st.settings).2 then 1 else 0)

/-- The line mode at start: RUN with the guard closed, HALTED with it open (R158). -/
def startMode : GuardState → LineMode
  | .closed => .run
  | .opened => .halted

/-- The guard flag at start: OPEN in HALTED, absent in RUN (R158). -/
def startFlag : GuardState → Option GuardState
  | .closed => none
  | .opened => some .opened

/-- The part right after its start (section 9.5): every item at its start value, canisters, classes and
settings from the store, HALT sent, and START queued on every port. -/
def State.start (guard : GuardState) (store : Store) (pending : List Instr) : State :=
  { State.reset with
    guardInput := guard
    line := { mode := startMode guard, guard := startFlag guard, settings := (readSettings store.settings).1 }
    ports := Vector.replicate 4
      { PortState.start with notices := [.start store.discards (startMode guard)], attention := true }
    canisters := mapVec (fun p => (store.startCan p).1.start) posVec
    classes := (readClasses [] store.classes).1
    store := store.afterStart
    pending := pending }

/-- PART_START (R156 to R158): RESET is released or power is established. A part that runs has started
(DEDUCED, log entry 17: safe). -/
def execPartStart (s : State) : Host.Outcome State Fault Refusal :=
  .next (if s.active then s else State.start s.guardInput s.store s.pending)

end Sys2Proof.Machine
end

