-- ==== Sys2Proof/Machine/Dispatch.lean ====
section
/-! DEFINITION. The meaning of every command, one arm per row of the table. -/

namespace Sys2Proof.Machine

def exec (i : Instr) (s : State) : Host.Outcome State Fault Refusal :=
  match i with
  | .submit p tag body => Sys2Proof.Machine.execSubmit p tag body s
  | .cancel p tag body => Sys2Proof.Machine.execCancel p tag body s
  | .resume p tag body => Sys2Proof.Machine.execResume p tag body s
  | .retire p tag body => Sys2Proof.Machine.execRetire p tag body s
  | .readJob p tag body => Sys2Proof.Machine.execReadJob p tag body s
  | .readTin p tag body => Sys2Proof.Machine.execReadTin p tag body s
  | .install p tag body => Sys2Proof.Machine.execInstall p tag body s
  | .remove p tag body => Sys2Proof.Machine.execRemove p tag body s
  | .calibrate p tag body => Sys2Proof.Machine.execCalibrate p tag body s
  | .refillBegin p tag body => Sys2Proof.Machine.execRefillBegin p tag body s
  | .refillEnd p tag body => Sys2Proof.Machine.execRefillEnd p tag body s
  | .adjust p tag body => Sys2Proof.Machine.execAdjust p tag body s
  | .readCanister p tag body => Sys2Proof.Machine.execReadCanister p tag body s
  | .setTinClassSet p tag body => Sys2Proof.Machine.execSetTinClassSet p tag body s
  | .setTinClassDelete p tag body => Sys2Proof.Machine.execSetTinClassDelete p tag body s
  | .setLine p tag body => Sys2Proof.Machine.execSetLine p tag body s
  | .lineModePark p tag body => Sys2Proof.Machine.execLineModePark p tag body s
  | .lineModeWake p tag body => Sys2Proof.Machine.execLineModeWake p tag body s
  | .resumeLine p tag body => Sys2Proof.Machine.execResumeLine p tag body s
  | .mixerReturn p tag body => Sys2Proof.Machine.execMixerReturn p tag body s
  | .find p tag body => Sys2Proof.Machine.execFind p tag body s
  | .status p tag body => Sys2Proof.Machine.execStatus p tag body s
  | .fetchNotice p tag body => Sys2Proof.Machine.execFetchNotice p tag body s
  | .clearPort p tag body => Sys2Proof.Machine.execClearPort p tag body s
  | .frameReceived p kind tag body crc => Sys2Proof.Machine.execFrameReceived p kind tag body crc s
  | .frameGapTimeout p => Sys2Proof.Machine.execFrameGapTimeout p s
  | .answerSent p => Sys2Proof.Machine.execAnswerSent p s
  | .burstDone pos steps => Sys2Proof.Machine.execBurstDone pos steps s
  | .chargeDone pos => Sys2Proof.Machine.execChargeDone pos s
  | .recircDone pos => Sys2Proof.Machine.execRecircDone pos s
  | .haltReport pos steps => Sys2Proof.Machine.execHaltReport pos steps s
  | .reading mass stable overload => Sys2Proof.Machine.execReading mass stable overload s
  | .scan cls base => Sys2Proof.Machine.execScan cls base s
  | .loaded m => Sys2Proof.Machine.execLoaded m s
  | .clampFault m => Sys2Proof.Machine.execClampFault m s
  | .lidded => Sys2Proof.Machine.execLidded s
  | .tinTaken lane => Sys2Proof.Machine.execTinTaken lane s
  | .guardOpened => Sys2Proof.Machine.execGuardOpened s
  | .guardClosed => Sys2Proof.Machine.execGuardClosed s
  | .resetAssert writing => Sys2Proof.Machine.execResetAssert writing s
  | .partStart => Sys2Proof.Machine.execPartStart s
  | .settleTimerExpiry pos => Sys2Proof.Machine.execSettleTimerExpiry pos s
  | .keepStirTimerExpiry pos => Sys2Proof.Machine.execKeepStirTimerExpiry pos s
  | .callTimerExpiry => Sys2Proof.Machine.execCallTimerExpiry s
  | .dwellTimerExpiry d => Sys2Proof.Machine.execDwellTimerExpiry d s
  | .dripTimerExpiry => Sys2Proof.Machine.execDripTimerExpiry s
  | .scaleSettleTimeout => Sys2Proof.Machine.execScaleSettleTimeout s
  | .mixTimerExpiry m => Sys2Proof.Machine.execMixTimerExpiry m s
  | .powerLoss writing => Sys2Proof.Machine.execPowerLoss writing s
  | .frameStartByte p => Sys2Proof.Machine.execFrameStartByte p s
  | .lengthByteAbove240 p len => Sys2Proof.Machine.execLengthByteAbove240 p len s

end Sys2Proof.Machine
end

