-- ==== Sys2Proof/Safety.lean ====
section
/-! DEFINITION. The terms in which statements about the part are made: when a port takes a request, which
fields of a job stay as admitted, and the laws of the device that every step keeps. -/

namespace Sys2Proof.Machine

/-! ### The taking of a request -/

/-- Port `p` takes this request now (R163): the part runs, its frame is the oldest of the receive hold, and every
answer out is an error answer. -/
def State.Takes (s : State) (p : Port) (k : ReqKind) (tag : Byte) (body : Bytes) : Prop :=
  s.power = .on ∧ (s.port p).hold.head? = some ⟨k, tag, body⟩ ∧ ∀ a ∈ (s.port p).out, a.isError = true

/-- The state after port `p` took a request and answered it with `body` (R162, R163, R176): its frame has left the
hold, and the answer, with the request's kind plus 0x80 and its tag, stands behind the answers out. -/
def State.replied (s : State) (p : Port) (k : ReqKind) (tag : Byte) (body : Bytes) : State :=
  s.setPort p { s.port p with
    hold := (s.port p).hold.tail
    out := (s.port p).out ++ [{ kind := codeKind k + 0x80, tag := tag, body := body, isError := false }] }

/-- The port and the frame of a request row (R163); none for a row that is an event. Of the frames of kind
SET-TIN-CLASS and LINE-MODE each row takes those of its own operation (log entry 5). -/
def requestOf : Instr → Option (Port × Frame)
  | .submit p tag body => some (p, ⟨.submit, tag, body⟩)
  | .cancel p tag body => some (p, ⟨.cancel, tag, body⟩)
  | .resume p tag body => some (p, ⟨.resume, tag, body⟩)
  | .retire p tag body => some (p, ⟨.retire, tag, body⟩)
  | .readJob p tag body => some (p, ⟨.readJob, tag, body⟩)
  | .readTin p tag body => some (p, ⟨.readTin, tag, body⟩)
  | .install p tag body => some (p, ⟨.install, tag, body⟩)
  | .remove p tag body => some (p, ⟨.remove, tag, body⟩)
  | .calibrate p tag body => some (p, ⟨.calibrate, tag, body⟩)
  | .refillBegin p tag body => some (p, ⟨.refillBegin, tag, body⟩)
  | .refillEnd p tag body => some (p, ⟨.refillEnd, tag, body⟩)
  | .adjust p tag body => some (p, ⟨.adjust, tag, body⟩)
  | .readCanister p tag body => some (p, ⟨.readCanister, tag, body⟩)
  | .setTinClassSet p tag body => if body.head? = some 1 then none else some (p, ⟨.setTinClass, tag, body⟩)
  | .setTinClassDelete p tag body => if body.head? = some 1 then some (p, ⟨.setTinClass, tag, body⟩) else none
  | .setLine p tag body => some (p, ⟨.setLine, tag, body⟩)
  | .lineModePark p tag body => if body.head? = some 1 then none else some (p, ⟨.lineMode, tag, body⟩)
  | .lineModeWake p tag body => if body.head? = some 1 then some (p, ⟨.lineMode, tag, body⟩) else none
  | .resumeLine p tag body => some (p, ⟨.resumeLine, tag, body⟩)
  | .mixerReturn p tag body => some (p, ⟨.mixerReturn, tag, body⟩)
  | .find p tag body => some (p, ⟨.find, tag, body⟩)
  | .status p tag body => some (p, ⟨.status, tag, body⟩)
  | .fetchNotice p tag body => some (p, ⟨.fetchNotice, tag, body⟩)
  | .clearPort p tag body => some (p, ⟨.clearPort, tag, body⟩)
  | .frameReceived _ _ _ _ _ => none
  | .frameGapTimeout _ => none
  | .answerSent _ => none
  | .burstDone _ _ => none
  | .chargeDone _ => none
  | .recircDone _ => none
  | .haltReport _ _ => none
  | .reading _ _ _ => none
  | .scan _ _ => none
  | .loaded _ => none
  | .clampFault _ => none
  | .lidded => none
  | .tinTaken _ => none
  | .guardOpened => none
  | .guardClosed => none
  | .resetAssert _ => none
  | .partStart => none
  | .settleTimerExpiry _ => none
  | .keepStirTimerExpiry _ => none
  | .callTimerExpiry => none
  | .dwellTimerExpiry _ => none
  | .dripTimerExpiry => none
  | .scaleSettleTimeout => none
  | .mixTimerExpiry _ => none
  | .powerLoss _ => none
  | .frameStartByte _ => none
  | .lengthByteAbove240 _ _ => none

/-- The answers out with one more error answer, unless 2 are out already (R163). -/
def withError (out : List Answer) (kind tag : Byte) (body : Bytes) : List Answer :=
  if (out.filter fun a => a.isError).length < 2 then out ++ [{ kind := kind, tag := tag, body := body, isError := true }]
  else out

/-- `t` once the OK answer of the request that port `p` took stands behind its answers out (R163, R179): the header,
then the content. -/
def State.answered (t : State) (p : Port) (k : ReqKind) (tag : Byte) (content : Bytes) : State :=
  t.setPort p { t.port p with
    out := (t.port p).out ++
      [{ kind := codeKind k + 0x80, tag := tag, body := [0, 0, 0] ++ content, isError := false }] }

/-- `t` with a canister at a position and its kept fields written to the settings store (R41, R155). -/
def State.putCan (t : State) (p : Pos) (c : Canister) : State :=
  { t.setCan p c with store := { t.store with canisters := t.store.canisters.set p (some ⟨c.kept, true⟩) } }

/-- `t` with a job in the slot its handle names (R58). -/
def State.putJob (t : State) (h : Handle) (j : Job) : State := t.setSlot h.slot { gen := h.gen, job := some j }

/-- The body of a SUBMIT passes the checks of R71 and the checks of R72 up to the shortage step, on port `p`. -/
structure SubmitFits (s : State) (p : Port) (body : Bytes) : Prop where
  count : 1 ≤ u8 body 42 ∧ u8 body 42 ≤ 6
  length : body.length = 43 + 11 * u8 body 42
  texts : printable (textAt body 0 12) = true ∧ printable (textAt body 12 16) = true ∧
    printable (textAt body 28 4) = true ∧ printable (textAt body 32 2) = true
  codes : ∀ o, 37 ≤ o → o ≤ 41 → u8 body o ≤ 1
  entries : ∀ e ∈ (submitBody body).comps, printable e.code = true ∧ blankText e.code = false ∧
    (∃ d, parseAmount e.amount = some d ∧ normalise d e.scale ≤ 2000000) ∧ e.scale ≤ 4 ∧
    ∃ q, (s.can q).kept.installed = true ∧ (s.can q).kept.code = e.code
  distinct : ((submitBody body).comps.map fun e => e.code).Nodup
  vref : 250 ≤ uN body 34 2 ∧ uN body 34 2 ≤ 20000
  tins : 1 ≤ u8 body 36 ∧ u8 body 36 ≤ 99
  cls : ∃ c ∈ s.classes, c.code = textAt body 32 2
  substep : u8 body 37 = 1 → ∀ c ∈ (newJob s p (submitBody body)).comps, c.substep = false
  headroom : ((newJob s p (submitBody body)).comps.map fun c => c.exact).sum ≤
    s.headroomOf (textAt body 32 2) * 1000000 * uN body 34 2
  pool : (s.jobs.map fun x => x.2.n).sum + u8 body 36 ≤ 400

/-- The fields of a SUBMIT body that FORMAT checks, in body order, each with its field number: the texts, the
dispositions and the shortage option (R71, R177). -/
def SubmitBody.fields (r : SubmitBody) : List (Nat × Bool) :=
  [(1, printable r.orderRef), (2, printable r.colour), (3, printable r.base), (4, printable r.cls),
    (7, decide (r.dSubstep ≤ 1)), (8, decide (r.dWeighOut ≤ 1)), (9, decide (r.dWeighNone ≤ 1)),
    (10, decide (r.dLotBreak ≤ 1)), (11, decide (r.shortage ≤ 1))]

/-- A component entry passes FORMAT (R71): a printable code that is not blank and no earlier component has, an amount of
digits then spaces (R2), a scale of 0 to 4. -/
abbrev CompEntry.Fits (earlier : List CompEntry) (e : CompEntry) : Prop :=
  printable e.code = true ∧ blankText e.code = false ∧ e.code ∉ earlier.map (fun x => x.code) ∧
    (parseAmount e.amount).isSome = true ∧ e.scale ≤ 4

/-- The normalised amount of an entry, in microlitres per Vref mL: d shifted to three decimal places, the fourth rounded
half up (R3). -/
def CompEntry.micro (e : CompEntry) (d : Nat) : Nat :=
  if e.scale ≤ 3 then d * 10 ^ (3 - e.scale) else (d + 5) / 10

/-- The fields of an INSTALL that RANGE checks, in body order, each with its field number: the declared fields against
their ranges, and the level against the heel (R21, R33, R178). -/
def CanRecord.installFields (r : CanRecord) : List (Nat × Bool) :=
  [(3, decide (500000000 ≤ r.capacity ∧ r.capacity ≤ 3000000000)),
    (4, decide (r.heel ≤ 200000000 ∧ r.heel < r.capacity)), (5, decide (r.lowMark ≤ 1000000000)),
    (6, decide (100 ≤ r.q ∧ r.q ≤ 60000)), (7, decide (800 ≤ r.density ∧ r.density ≤ 2500)),
    (8, decide (500 ≤ r.stroke ∧ r.stroke ≤ 20000)), (9, decide (r.pulse = 0 ∨ 10 ≤ r.pulse ∧ r.pulse ≤ 2000)),
    (10, decide (10 ≤ r.dwell ∧ r.dwell ≤ 2000)), (11, decide (1 ≤ r.settleLimit ∧ r.settleLimit ≤ 240)),
    (12, decide (5 ≤ r.recircTime ∧ r.recircTime ≤ 600)), (13, decide (5 ≤ r.keepStir ∧ r.keepStir ≤ 120)),
    (14, decide (r.heel ≤ r.level))]

/-- The refusal of a request from port `p` whose body names a well-formed handle: NO-JOB where the slot is empty or bears
another generation, NOT-OWNER where a counter port names another port's job (R59, R60). -/
def State.JobRefused (s : State) (p : Port) (body detail : Bytes) : Prop :=
  ∃ i : Fin 24, u8 body 0 = i.val ∧ 1 ≤ u8 body 1 ∧
    ((((s.slot i).job = none ∨ (s.slot i).gen ≠ u8 body 1) ∧ detail = [0x04, 0, 0]) ∨
      ∃ j, (s.slot i).job = some j ∧ (s.slot i).gen = u8 body 1 ∧ p ≠ .w ∧ j.owner ≠ p ∧ detail = [0x05, 0, 0])

/-- A request row whose body is a handle makes the checks of R59 and R60 that precede its own: FORMAT for another length,
RANGE for the handle, which it names (DEDUCED, log entry 47: unsafe), NO-JOB and NOT-OWNER. -/
def State.ChecksHandle (s : State) (p : Port) (k : ReqKind) (tag : Byte) (row : Bytes → Instr) : Prop :=
  ∀ body, s.Takes p k tag body →
    let refused := fun detail : Bytes => exec (row body) s = .next (s.replied p k tag detail)
    (body.length ≠ 2 → refused [0x02, 0, 0]) ∧
    (body.length = 2 → (23 < u8 body 0 ∨ u8 body 1 = 0 → refused [0x03, 1, 0]) ∧
      ∀ detail, s.JobRefused p body detail → refused detail)

/-- A record holds the bytes `f` from offset `off` on. -/
def holdsAt (r : Bytes) (off : Nat) (f : Bytes) : Prop := (r.drop off).take f.length = f

/-! ### Frames: what walks, selections and the lidder leave -/

/-- A port but for its notice queue, lost mark and attention line. -/
def PortState.sansNotices (ps : PortState) : PortState := { ps with notices := [], lost := false, attention := false }

/-- A canister but for what a request for recirculation may change: its state, demand, timers and stirrer line. -/
def Canister.sansStir (c : Canister) : Canister :=
  { c with state := .vacant, demand := false, settleTimer := none, keepTimer := none, stirrer := false }

/-- A component record but for its reserved steps, its lot snapshot and its lot-break mark. -/
def Component.sansStock (c : Component) : Component := { c with reserved := 0, lotSnap := [], lotBreak := false }

/-- A job but for its state, its suspension cause, its pending re-reservation and the stock side of its
components. -/
def Job.sansStock (j : Job) : Job :=
  { j with state := .ready, cause := none, pendingRe := none, comps := j.comps.map Component.sansStock }

/-- The part but for all that walks, grants, calls and selections change: notices, demands and recirculations, wait
lists, the stock side of jobs, the dispense queue, the call, the station's state and the line mode. -/
def State.sansService (s : State) : State :=
  { s with
    ports := mapVec PortState.sansNotices s.ports
    canisters := mapVec Canister.sansStir s.canisters
    pumps := mapVec (fun p => { p with state := .idle }) s.pumps
    waits := Vector.replicate 16 []
    slots := mapVec (fun x => { x with job := x.job.map Job.sansStock }) s.slots
    queue := [], quota := 0, call := none, callTimer := none, station := .idle
    line := { s.line with mode := .run, guard := none }
    sent := [] }

/-- Between `s` and `t` only walks, grants, calls, selections and changes of line mode took place (R49 to R51, R85 to
R89, R146): all else stands as it was, and no canister but a SETTLED one was touched. -/
structure State.Serves (s t : State) : Prop where
  same : t.sansService = s.sansService
  cans : ∀ p, (s.can p).state ≠ .settled → t.can p = s.can p

/-- The part but for all that a walk, a selection, a transfer or a take of the lidder changes: also the station's tin,
the mixers and the lidder. -/
def State.sansMoves (s : State) : State :=
  { s.sansService with tin := none, m1 := Mixer.idle, m2 := Mixer.idle, lidder := Lidder.start }

/-- Between `s` and `t` tins may also have moved on from the station, a mixer or the lidder (R130, R138). -/
structure State.Moves (s t : State) : Prop where
  same : t.sansMoves = s.sansMoves
  cans : ∀ p, (s.can p).state ≠ .settled → t.can p = s.can p

/-! ### Laws of the device -/

/-- A port controller within its bounds: at most 2 frames held (R162), at most 2 error answers and one request
answer out (R163), at most 16 notices (R166), the attention line asserted exactly when the notice queue is
not empty (R168), and the gap limit running exactly within a frame (R160). -/
structure PortState.Ok (ps : PortState) : Prop where
  hold : ps.hold.length ≤ 2
  errors : (ps.out.filter fun a => a.isError).length ≤ 2
  answers : (ps.out.filter fun a => !a.isError).length ≤ 1
  notices : ps.notices.length ≤ 16
  attention : ps.attention = !ps.notices.isEmpty
  gap : ps.gap.isSome = !ps.rx.isEmpty

/-- Every port controller is within its bounds. -/
def State.PortsOk (s : State) : Prop := ∀ p, (s.port p).Ok

/-- Every lane count lies between 0 and the lane's capacity (R142). -/
def State.LanesOk (s : State) : Prop := ∀ x, s.lanes.count x ≤ laneCapacity x

/-- Every generation count is 1 to 255 (R58). -/
def State.GensOk (s : State) : Prop := ∀ i, 1 ≤ (s.slot i).gen ∧ (s.slot i).gen ≤ 255

/-- The result entries in use, one per tin of each occupying job, never exceed 400 (R64). -/
def State.PoolOk (s : State) : Prop := (s.jobs.map fun x => x.2.n).sum ≤ 400

/-- The line controller: the guard flag is present exactly in HALTED (R146), and every setting is in its range
(R153). -/
structure Line.Ok (l : Line) : Prop where
  flag : l.guard.isSome = (l.mode == .halted)
  settings : l.settings.clamp = l.settings

/-- The declared fields of a canister record are in the ranges of R21. -/
structure CanRecord.Declared (r : CanRecord) : Prop where
  capacity : 500000000 ≤ r.capacity ∧ r.capacity ≤ 3000000000
  heel : r.heel ≤ 200000000 ∧ r.heel < r.capacity
  lowMark : r.lowMark ≤ 1000000000
  q : 100 ≤ r.q ∧ r.q ≤ 60000
  density : 800 ≤ r.density ∧ r.density ≤ 2500
  stroke : 500 ≤ r.stroke ∧ r.stroke ≤ 20000
  pulse : r.pulse = 0 ∨ 10 ≤ r.pulse ∧ r.pulse ≤ 2000
  dwell : 10 ≤ r.dwell ∧ r.dwell ≤ 2000
  settleLimit : 1 ≤ r.settleLimit ∧ r.settleLimit ≤ 240
  recircTime : 5 ≤ r.recircTime ∧ r.recircTime ≤ 600
  keepStir : 5 ≤ r.keepStir ∧ r.keepStir ≤ 120

/-- Every field of an installed canister's record is in its range (R21). -/
structure CanRecord.InRange (r : CanRecord) : Prop where
  declared : r.Declared
  level : r.heel ≤ r.level ∧ r.level ≤ r.capacity
  code : r.code.length = 3 ∧ printable r.code = true ∧ blankText r.code = false
  lot : r.lot.length = 8 ∧ printable r.lot = true
  count : r.count < 65536

/-- Every field of a class record is in its range (R81). -/
abbrev TinClass.InRange (c : TinClass) : Prop :=
  c.code.length = 2 ∧ printable c.code = true ∧ blankText c.code = false ∧ 250 ≤ c.fill ∧ c.fill ≤ 20000 ∧
    5 ≤ c.headroom ∧ c.headroom ≤ 800 ∧ 30 ≤ c.mixTime ∧ c.mixTime ≤ 600

/-- A canister position: installed exactly when not VACANT and then with declared fields in range (R21), the settle
timer running in READY alone and the keep-stir timer in STIRRING alone (R24), a demand only while SETTLED
(R25), the level within the capacity (R22) and the change count below 65,536 (R23). -/
structure Canister.Ok (c : Canister) : Prop where
  installed : c.kept.installed = (c.state != .vacant)
  settle : c.settleTimer.isSome = (c.state == .ready)
  keep : c.keepTimer.isSome = (c.state == .stirring)
  demand : c.demand = true → c.state = .settled
  level : c.kept.level ≤ c.kept.capacity
  count : c.kept.count < 65536
  declared : c.kept.installed = true → c.kept.Declared

/-- The stirrer line of a position is on in RECIRC and STIRRING and off in every other state (R24). -/
def Canister.StirrerOk (c : Canister) : Prop := c.stirrer = (c.state == .recirc || c.state == .stirring)

/-- Every canister record is lawful; the stirrer lines follow the states while the part runs, and are off while it
does not (R24, R156). -/
def State.CansOk (s : State) : Prop :=
  ∀ p, (s.can p).Ok ∧ (if s.power = .on then (s.can p).StirrerOk else (s.can p).stirrer = false)

/-- Every piston charge lies between 0 and the canister's stroke capacity (R99). -/
def State.PumpsOk (s : State) : Prop := ∀ p, (s.pump p).charge ≤ (s.can p).kept.stroke

/-- The dispense queue holds no duplicates (R83). -/
def State.QueueOk (s : State) : Prop := s.queue.Nodup

/-- The class table holds at most 12 classes, no two with one code, and so does the store (R81, R154); a part
that has power holds the class of each stored copy (R81, R155). -/
structure State.ClassesOk (s : State) : Prop where
  few : s.store.classes.length ≤ 12
  codes : (s.store.classes.map fun x => x.data.code).Nodup
  table : s.power ≠ .off → s.classes = s.store.classes.map fun x => x.data

/-! ### What a job keeps -/

/-- What a component record keeps from admission (R2, R3, R6, R7, R61); its lot-break mark, once set, stays set. -/
structure Component.Keeps (c d : Component) : Prop where
  pos : d.pos = c.pos
  code : d.code = c.code
  amount : d.amount = c.amount
  scale : d.scale = c.scale
  a : d.a = c.a
  exact : d.exact = c.exact
  qSnap : d.qSnap = c.qSnap
  substep : d.substep = c.substep
  lotBreak : c.lotBreak = true → d.lotBreak = true

/-- Every component record of a job holds S(c), the cumulative step count after the job's c counted tins (R8). -/
def Job.CumOk (j : Job) : Prop := ∀ c ∈ j.comps, c.cum = cumSteps j.counted c.exact (c.qSnap * j.vref)

/-- What a job record keeps from admission until its slot is freed (R61, R62); its counted tins never fall
(R63), and its component records go on holding S(c) (R8, R15). -/
structure Job.Keeps (j k : Job) : Prop where
  owner : k.owner = j.owner
  orderRef : k.orderRef = j.orderRef
  colour : k.colour = j.colour
  base : k.base = j.base
  cls : k.cls = j.cls
  vref : k.vref = j.vref
  n : k.n = j.n
  dSubstep : k.dSubstep = j.dSubstep
  dWeighOut : k.dWeighOut = j.dWeighOut
  dWeighNone : k.dWeighNone = j.dWeighNone
  dLotBreak : k.dLotBreak = j.dLotBreak
  shortage : k.shortage = j.shortage
  comps : List.Forall₂ Component.Keeps j.comps k.comps
  counted : j.counted ≤ k.counted
  results : k.results.length = j.results.length
  cum : j.CumOk → k.CumOk

/-- Every job's component records hold S(c) of a step divisor above 0 (R7, R8). -/
def State.CumOk (s : State) : Prop :=
  ∀ i j, (s.slot i).job = some j → j.CumOk ∧ ∀ c ∈ j.comps, 0 < c.qSnap * j.vref

/-! ### Laws of the line: station, mixers and lidder -/

/-- The stage of a tin at the station in each of its states (R97). -/
def stageAt : StationState → Route → Stage
  | .idle, _ => .taring
  | .calling, _ => .taring
  | .taring, _ => .taring
  | .dispensing, _ => .dispensing
  | .drip, _ => .drip
  | .weighing, _ => .weighing
  | .handoff, .normal => .mixWait
  | .handoff, .reject => .lidWait

/-- The station: the call record stands exactly in CALLING, with its timer (R89, R90), and the tin context exactly in the
five states with a tin, in the stage of the state (R97). The drip timer runs in DRIP alone, a tare is captured in
TARING alone and a gross in WEIGHING alone, with the scale settle timer (R111, R118). In HALTED nothing is
captured, no tin is in DRIP or WEIGHING, and a tin in DISPENSING has been stopped (R114, R115). -/
structure State.StationOk (s : State) : Prop where
  call : s.call.isSome = (s.station == .calling)
  callTimer : s.callTimer.isSome = s.call.isSome
  tin : s.tin.isSome = (s.station != .idle && s.station != .calling)
  stage : ∀ t, s.tin = some t → t.stage = stageAt s.station t.route
  drip : s.dripTimer.isSome = (s.station == .drip)
  tare : s.capture = .tare → s.station = .taring
  gross : s.capture = .gross → s.station = .weighing
  scale : s.scaleTimer.isSome = (s.capture != .none)
  halted : s.line.mode = .halted → s.capture = .none ∧ s.station ≠ .drip ∧ s.station ≠ .weighing ∧
    ∀ t, s.tin = some t → s.station = .dispensing → t.stop ≠ .none

/-- What has stopped the station tin (R113 to R115, R188): GUARD stands only while a NORMAL tin in DISPENSING waits for a
burst in progress, its other channels FREE; CANCEL only on a REJECT tin; and a REJECT tin is in HANDOFF, or in
DISPENSING with the stop CANCEL. -/
structure State.StopOk (s : State) : Prop where
  guard : ∀ t, s.tin = some t → t.stop = .guard → s.station = .dispensing ∧ t.route = .normal ∧
    (∃ d, (s.chan d).state = .burst) ∧ ∀ d, (s.chan d).state = .burst ∨ (s.chan d).state = .free
  cancel : ∀ t, s.tin = some t → t.stop = .cancel → t.route = .reject
  reject : ∀ t, s.tin = some t → t.route = .reject →
    s.station = .handoff ∨ (s.station = .dispensing ∧ t.stop = .cancel)

/-- The drive channels: all FREE outside DISPENSING, a burst size only in BURST and a dwell timer only in DWELL
(R102, R109, R110). -/
structure State.ChansOk (s : State) : Prop where
  free : s.station ≠ .dispensing → ∀ d, (s.chan d).state = .free
  burst : ∀ d, (s.chan d).burst.isSome = ((s.chan d).state == .burst)
  dwell : ∀ d, (s.chan d).dwellTimer.isSome = ((s.chan d).state == .dwell)

/-- A mixer record (R129): a tin in MIXING and HOLDING, and in OUT if it went OUT holding one; an expected tin in
LOADING alone; the mix timer in MIXING alone, stopped while the line is HALTED; and only NORMAL tins, in the
stage of the state. -/
structure Mixer.Ok (m : Mixer) (halted : Bool) : Prop where
  empty : m.state = .idle ∨ m.state = .loading → m.tin = none
  full : m.state = .mixing ∨ m.state = .holding → m.tin ≠ none
  expected : m.expected.isSome = (m.state == .loading)
  timer : m.timer.isSome = (m.state == .mixing && !halted)
  route : ∀ t, m.tin = some t → t.route = .normal
  mixing : ∀ t, m.tin = some t → m.state = .mixing → t.stage = .mixing
  holding : ∀ t, m.tin = some t → m.state = .holding → t.stage = .lidWait

/-- Both mixer records are lawful, at most one mixer is LOADING, and it expects the NORMAL tin that stands at the
station in HANDOFF (R129, R130). -/
structure State.MixersOk (s : State) : Prop where
  each : ∀ m, (s.mixer m).Ok s.halted
  one : ¬ (s.m1.state = .loading ∧ s.m2.state = .loading)
  loading : ∀ m, (s.mixer m).state = .loading → s.station = .handoff ∧
    ∃ t, s.tin = some t ∧ t.route = .normal ∧ (s.mixer m).expected = some (t.handle, t.index)

/-- The lidder record (R136, R137): tin, label and lane outside IDLE, the command outstanding in LIDDING alone, and no
source twice in the claim list, where a mixer stands exactly while HOLDING and the station exactly while a REJECT tin
is in HANDOFF. -/
structure State.LidderOk (s : State) : Prop where
  tin : s.lidder.tin.isSome = (s.lidder.state != .idle)
  label : s.lidder.label.isSome = (s.lidder.state != .idle)
  dest : s.lidder.dest.isSome = (s.lidder.state != .idle)
  command : s.lidder.cmdOut = true → s.lidder.state = .lidding
  stage : ∀ t, s.lidder.tin = some t → t.stage = (if s.lidder.state = .laneWait then .laneWait else .lidding)
  nodup : s.lidder.claims.Nodup
  mixers : ∀ m, mixerSource m ∈ s.lidder.claims ↔ (s.mixer m).state = .holding
  station : Source.station ∈ s.lidder.claims ↔ s.station = .handoff ∧ ∃ t, s.tin = some t ∧ t.route = .reject

/-- The laws of station, head, mixers and lidder together (R89, R97, R102, R118, R129, R136, R137). -/
structure State.FloorOk (s : State) : Prop where
  station : s.StationOk
  stop : s.StopOk
  chans : s.ChansOk
  mixers : s.MixersOk
  lidder : s.LidderOk

/-! ### Laws of the job table, the queue and the wait lists -/

/-- The job's tin at the station is undecided (R63, R75). -/
def State.attempts (s : State) (h : Handle) : Bool :=
  match s.tin with
  | some t => t.handle == h && s.undecided t
  | none => false

/-- The counted tins of a job on the line: those on route NORMAL in a mixer, in the lidder, or in HANDOFF. -/
def State.countedTins (s : State) (h : Handle) : Nat :=
  (s.tins.filter fun x => x.2.handle == h && x.2.route == .normal && !(x.1 == 1 && s.undecided x.2)).length

/-- The counters of a job (R63): tins started are the counted ones and an undecided attempt, at most n; with a tin called
they are fewer than n; counted tins are delivered or on the line; and a job that waits or is SUSPENDED has a tin
left to start. A READY job has no tin called or on the line (R66), a waiting or SUSPENDED one none called and no
attempt (R67), and a DONE or CANCELLED one none of either (R69, R75). -/
structure State.JobOk (s : State) (h : Handle) (j : Job) : Prop where
  results : j.results.length = j.n
  started : j.state ∉ [JobState.cancelling, .done, .cancelled] →
    j.started = j.counted + (if s.attempts h then 1 else 0) ∧ j.started + (if s.called h then 1 else 0) ≤ j.n
  delivered : j.counted = j.delivered + s.countedTins h
  left : j.state = .waitingStock ∨ j.state = .suspended → j.started < j.n
  called : s.called h = true → j.state = .active
  attempt : s.attempts h = true → j.state = .active
  quiet : j.state ∈ [JobState.ready, .done, .cancelled] → s.tinCount h = 0

/-- The job table with the queue, the wait lists, the call and the tins (R48, R59, R63, R83). Each handle in the queue
names a READY, ACTIVE or SUSPENDED job with a tin left to start; each on a wait list a WAITING-STOCK job; each
WAITING-STOCK job stands on one list, once; the call names an ACTIVE job; and each tin on the line a job that
is not READY, DONE or CANCELLED, a REJECT one at the station a job that is CANCELLING or has a tin to count. -/
structure State.JobsOk (s : State) : Prop where
  queued : s.queue.Nodup ∧ ∀ h ∈ s.queue, ∃ j, s.job? h = some j ∧
    j.state ∈ [JobState.ready, .active, .suspended] ∧ j.started + (if s.called h then 1 else 0) < j.n
  waiting : ∀ p, (s.waitList p).Nodup ∧ ∀ h ∈ s.waitList p, ∃ j, s.job? h = some j ∧ j.state = .waitingStock
  listed : ∀ (i : Fin 24) (j : Job), (s.slot i).job = some j → j.state = .waitingStock →
    ∃ p, ⟨i, (s.slot i).gen⟩ ∈ s.waitList p
  once : ∀ p q h, h ∈ s.waitList p → h ∈ s.waitList q → p = q
  called : ∀ c, s.call = some c → ∃ j, s.job? c.handle = some j
  tins : ∀ x ∈ s.tins, ∃ j, s.job? x.2.handle = some j ∧ j.state ∉ [JobState.ready, .done, .cancelled]
  rejected : ∀ t j, s.tin = some t → t.route = .reject → s.job? t.handle = some j →
    j.state = .cancelling ∨ (s.station = .handoff ∧ j.counted < j.n)
  each : ∀ (i : Fin 24) (j : Job), (s.slot i).job = some j → s.JobOk ⟨i, (s.slot i).gen⟩ j

/-! ### Laws of the stock -/

/-- Installed canisters: the level is not below the heel (R22). -/
def State.HeelOk (s : State) : Prop :=
  ∀ p, (s.can p).kept.installed = true → (s.can p).kept.heel ≤ (s.can p).kept.level

/-- No two installed canisters carry one colourant code (R33). -/
def State.CodesOk (s : State) : Prop :=
  ∀ p q, (s.can p).kept.installed = true → (s.can q).kept.installed = true →
    (s.can p).kept.code = (s.can q).kept.code → p = q

/-- The reservation law (R45): reserved steps times the current q never exceed the level less the heel. -/
def State.ReserveOk (s : State) : Prop :=
  ∀ p, s.reservedSteps p * (s.can p).kept.q ≤ (s.can p).kept.level - (s.can p).kept.heel

/-- The steps that a job's attempt at the station has dispensed of component `i`, 0 without an attempt (R43). -/
def State.spent (s : State) (h : Handle) (i : Nat) : Nat :=
  match s.tin with
  | some t => if s.attempts h then t.dispensed.getD i 0 else 0
  | none => 0

/-- The claim of a job (R43): a job placed by SUBMIT holds nothing; a returned job its target less the pending
re-reservation; every other live job its target; a CANCELLING job the size of each burst in progress (R55); a DONE or
CANCELLED job nothing (R56). -/
structure State.ClaimOk (s : State) (h : Handle) (j : Job) : Prop where
  sizes : ∀ l, j.pendingRe = some l → l.length = j.comps.length ∧ (j.state = .waitingStock ∨
    (j.state = .suspended ∧ (j.cause = some .weighStop ∨ j.cause = some .weighNoneStop)))
  placed : j.state = .waitingStock → j.pendingRe = none → j.started = 0 ∧ ∀ c ∈ j.comps, c.reserved = 0
  returned : ∀ l (i : Nat) (c : Component), j.pendingRe = some l → j.comps[i]? = some c →
    c.reserved + l.getD i 0 + c.cum = j.need c
  held : j.state ∈ [JobState.ready, .active, .suspended] → j.pendingRe = none →
    ∀ (i : Nat) (c : Component), j.comps[i]? = some c → c.reserved + s.spent h i + c.cum = j.need c
  kept : j.state = .cancelling → ∀ (i : Nat) (c : Component), j.comps[i]? = some c → c.reserved = s.burstOf h i
  freed : j.state = .done ∨ j.state = .cancelled → ∀ c ∈ j.comps, c.reserved = 0

/-- The components of a job that is not DONE or CANCELLED stand on different positions, each with its installed canister,
which bears the component's code (R1, R33, R34). -/
structure State.NamesOk (s : State) (j : Job) : Prop where
  distinct : (j.comps.map fun c => c.pos).Nodup
  installed : ∀ c ∈ j.comps, (s.can c.pos).kept.installed = true ∧ (s.can c.pos).kept.code = c.code

/-- The station tin against its job (R9, R97, R110): one count for each component, never more dispensed than counted; an
undecided tin has the counts of the next tin, all dispensed from DRIP on. -/
structure State.TinOk (s : State) (t : TinCtx) (j : Job) : Prop where
  steps : t.steps.length = j.comps.length
  dispensed : t.dispensed.length = j.comps.length
  within : ∀ i, t.dispensed.getD i 0 ≤ t.steps.getD i 0
  next : s.undecided t = true → t.steps = j.nextSteps
  whole : s.station = .drip ∨ s.station = .weighing → t.dispensed = t.steps
  unlocked : s.undecided t = true → s.station = .taring ∨ s.station = .dispensing →
    ∀ (i : Nat) (c : Component), j.comps[i]? = some c → t.dispensed.getD i 0 < t.steps.getD i 0 →
      (s.can c.pos).state ≠ .locked

/-- A channel at work for the station tin (R102, R103, R107): it holds a component of the tin that no other channel
holds, on its canister, with the steps left to dispense of it; its burst is no larger; and when it is DONE with
dispensing not stopped, none are left. -/
structure State.ChanOk (s : State) (d : ChanId) (t : TinCtx) (j : Job) : Prop where
  comp : ∃ c, j.comps[(s.chan d).comp]? = some c ∧ c.pos = (s.chan d).pos
  alone : ∀ e, (s.chan e).state ≠ .free → (s.chan e).comp = (s.chan d).comp → e = d
  remaining : (s.chan d).remaining + t.dispensed.getD (s.chan d).comp 0 = t.steps.getD (s.chan d).comp 0
  burst : ∀ k, (s.chan d).burst = some k → k ≤ (s.chan d).remaining ∧ k ≤ (s.pump (s.chan d).pos).charge ∧
    (s.pump (s.chan d).pos).state = .burst
  done : (s.chan d).state = .done → t.stop = .none → (s.chan d).remaining = 0

/-- The stock laws together: R22, R33, R43, R45, and what they rest on of the station tin, its channels, the pumps and
the called tin (R36, R52, R99). -/
structure State.StockOk (s : State) : Prop where
  heel : s.HeelOk
  codes : s.CodesOk
  reserve : s.ReserveOk
  claims : ∀ (i : Fin 24) (j : Job), (s.slot i).job = some j → s.ClaimOk ⟨i, (s.slot i).gen⟩ j
  names : ∀ (i : Fin 24) (j : Job), (s.slot i).job = some j → j.state ≠ .done → j.state ≠ .cancelled → s.NamesOk j
  tin : ∀ t j, s.tin = some t → s.job? t.handle = some j → s.TinOk t j
  chans : ∀ t j d, s.tin = some t → s.job? t.handle = some j → (s.chan d).state ≠ .free → s.ChanOk d t j
  call : ∀ c j, s.call = some c → s.job? c.handle = some j → s.noneLocked j.nextSteps j.comps = true
  burst : ∀ p, (s.pump p).state = .burst → ∃ d, (s.chan d).state = .burst ∧ (s.chan d).pos = p
  recirc : ∀ p, (s.pump p).state = .recirc → (s.can p).state = .recirc ∨ (s.can p).state = .settled

/-- Every law of the device that spans its blocks, with those of the single blocks it rests on. -/
structure State.Lawful (s : State) : Prop where
  floor : s.FloorOk
  jobs : s.JobsOk
  stock : s.StockOk
  cans : s.CansOk
  pumps : s.PumpsOk
  cum : s.CumOk
  gens : s.GensOk

end Sys2Proof.Machine
end

