-- ==== Sys2Proof/Certificates/Slice0/Obligations.lean ====
section
/-! DEFINITION. The statements for the provers. Each says what a command or the part does by the manual's rules;
where one rests on a choice of the model its docstring names the log entry. -/

open Sys2Proof Sys2Proof.Machine

/-! ### Steps, start, RESET and power -/

/-- A step executes the command at the front of the queue on the state with the queue's rest. -/
def Obligations.StepRunsFrontCommand : Prop :=
  ∀ (c : Instr) (s : State), step { s with pending := c :: s.pending } = exec c s

/-- On an empty queue one millisecond passes (the model's choice, log entry 2): each running timer counts down, the
call timer only while the line is not HALTED (R90), and nothing else changes; an inactive part counts
nothing (R156). -/
def Obligations.EmptyQueueStepPassesOneMillisecond : Prop :=
  ∀ s : State, s.pending = [] →
    (s.power ≠ .on → step s = .next s) ∧
    (s.power = .on → ∃ t, step s = .next t ∧
      t = { s with ports := t.ports, canisters := t.canisters, callTimer := t.callTimer, channels := t.channels
                   dripTimer := t.dripTimer, scaleTimer := t.scaleTimer, m1 := t.m1, m2 := t.m2 } ∧
      (∀ p, t.port p = { s.port p with gap := (s.port p).gap.map (· - 1) }) ∧
      (∀ p, t.can p = { s.can p with settleTimer := (s.can p).settleTimer.map (· - 1)
                                     keepTimer := (s.can p).keepTimer.map (· - 1) }) ∧
      t.callTimer = (if s.line.mode = .halted then s.callTimer else s.callTimer.map (· - 1)) ∧
      (∀ d, t.chan d = { s.chan d with dwellTimer := (s.chan d).dwellTimer.map (· - 1) }) ∧
      t.dripTimer = s.dripTimer.map (· - 1) ∧
      t.scaleTimer = s.scaleTimer.map (· - 1) ∧
      t.m1 = { s.m1 with timer := s.m1.timer.map (· - 1) } ∧
      t.m2 = { s.m2 with timer := s.m2.timer.map (· - 1) })

/-- The state after reset is that of a new part, with an empty store and the guard closed, right after its first
start, and it meets the laws that every step keeps: those of the single blocks and, as `State.Lawful`, those that span
them. That reset stands after the start is the model's choice
(log entries 3 and 4). -/
def Obligations.ResetIsANewPartsFirstStart : Prop :=
  exec .partStart (State.dark .closed Store.empty []) = .next State.reset ∧
  State.reset.PortsOk ∧ State.reset.LanesOk ∧ State.reset.GensOk ∧ State.reset.PoolOk ∧ State.reset.line.Ok ∧
  State.reset.CansOk ∧ State.reset.PumpsOk ∧ State.reset.QueueOk ∧ State.reset.ClassesOk ∧ State.reset.CumOk ∧
  State.reset.CodesOk ∧ State.reset.Lawful

/-- A start: every item takes its start value (section 9.5). A position takes the record of an installed canister exactly
if its stored copy is intact, every field is in range and no position taken at a lower number bears its code (R42,
R157), and is vacant otherwise; it stands SETTLED with the latch by usable volume. Classes are taken in the same way
(R81), read in the order in which the store lists them (the model's choice, log entry 46), settings if intact and in range, else the defaults (R153). Discarded records are replaced by vacant ones, erased,
or replaced by the defaults; every other copy stays as it is, so the next start discards none (R157). The guard input
gives RUN or HALTED, and START, with the count of discarded records, is the one notice of every port (R158). That a
start changes nothing on a part that runs is the model's choice (log entry 17), as is the discard of a copy that is
marked vacant but holds other values (log entry 29). -/
def Obligations.PartStartReadsTheStore : Prop :=
  ∀ s : State,
    (s.power = .on → exec .partStart s = .next s) ∧
    (s.power ≠ .on → ∃ (t : State) (kept : Pos → CanRecord), exec .partStart s = .next t ∧
      (∀ p, kept p = CanRecord.vacant ∨
        (kept p).installed = true ∧ s.store.canisters[p] = some ⟨kept p, true⟩ ∧ (kept p).InRange) ∧
      (∀ p q, (kept p).installed = true → (kept q).installed = true → (kept p).code = (kept q).code → p = q) ∧
      (∀ p r, s.store.canisters[p] = some ⟨r, true⟩ → r.installed = true → r.InRange →
        kept p = r ∨ ∃ q, q < p ∧ (kept q).installed = true ∧ (kept q).code = r.code) ∧
      let classes := s.store.classes.foldl
        (fun l x => if x.intact = true ∧ x.data.InRange ∧ ∀ c ∈ l, c.code ≠ x.data.code then l ++ [x.data] else l) []
      let settings := match s.store.settings with
        | some x => if x.intact = true ∧ x.data.clamp = x.data then x.data else Settings.default
        | none => Settings.default
      let mode : LineMode := if s.guardInput = .closed then .run else .halted
      let discards :=
        (allPos.filter fun p => s.store.canisters[p] ≠ none ∧ s.store.canisters[p] ≠ some ⟨kept p, true⟩).length +
          (s.store.classes.length - classes.length) +
          (if s.store.settings ≠ none ∧ s.store.settings ≠ some ⟨settings, true⟩ then 1 else 0)
      t = { State.reset with
        guardInput := s.guardInput
        line := { mode := mode, guard := if s.guardInput = .closed then none else some .opened, settings := settings }
        ports := Vector.replicate 4
          { rx := [], gap := none, hold := [], out := [], notices := [.start discards mode], lost := false
            attention := true }
        canisters := t.canisters
        classes := classes
        store := { canisters := t.store.canisters, classes := classes.map fun c => ⟨c, true⟩
                   settings := s.store.settings.map fun _ => ⟨settings, true⟩ }
        pending := s.pending } ∧
      (∀ p, t.can p =
        { kept := kept p, state := if (kept p).installed then .settled else .vacant
          latch := (kept p).installed && decide ((kept p).lowMark < (kept p).level - (kept p).heel)
          demand := false, settleTimer := none, keepTimer := none, stirrer := false }) ∧
      (∀ p : Pos, t.store.canisters[p] = s.store.canisters[p].map fun _ => ⟨kept p, true⟩) ∧
      ∃ u, exec .partStart (State.dark s.guardInput t.store []) = .next u ∧
        ∀ p, (u.port p).notices = [.start 0 mode])

/-- RESET asserted on a part that runs empties the notice queues, clears the lost marks, drops the attention lines,
shuts the gate and turns the stirrers off (R156); loss of power leaves the store alone (R155). A copy being written at
that moment, which R155 says may be left incomplete, is here the one the command names, and is left so (the model's
choice, log entry 16); every other copy is kept (R155). What stands in the fields lost with power is the model's choice
(log entry 14), and so is that RESET on an inactive part and loss of power without power change nothing (log
entry 17). -/
def Obligations.ResetAndPowerLossKeepTheStore : Prop :=
  ∀ (s : State) (w : Option StoreKey),
    (s.power ≠ .on → exec (.resetAssert w) s = .next s) ∧
    (s.power = .on → ∃ t, exec (.resetAssert w) s = .next t ∧
      t = { s with power := .reset, ports := t.ports, canisters := t.canisters, gateOpen := false, store := t.store } ∧
      (∀ p, t.port p = { s.port p with notices := [], lost := false, attention := false }) ∧
      (∀ p, t.can p = { s.can p with stirrer := false }) ∧
      t.store = s.store.breakCopy w) ∧
    (s.power = .off → exec (.powerLoss w) s = .next s) ∧
    (s.power ≠ .off → exec (.powerLoss w) s = .next (State.dark s.guardInput (s.store.breakCopy w) s.pending)) ∧
    s.store.breakCopy none = s.store ∧
    (∀ p q : Pos, (s.store.breakCopy (some (.canister p))).canisters[q] =
      if p = q then s.store.canisters[q].map (fun x => { x with intact := false }) else s.store.canisters[q]) ∧
    (∀ p : Pos, (s.store.breakCopy (some (.canister p))).classes = s.store.classes ∧
      (s.store.breakCopy (some (.canister p))).settings = s.store.settings) ∧
    (∀ code, s.store.breakCopy (some (.tinClass code)) =
      { s.store with
        classes := s.store.classes.map fun x => if x.data.code = code then { x with intact := false } else x }) ∧
    s.store.breakCopy (some .settings) =
      { s.store with settings := s.store.settings.map fun x => { x with intact := false } }

/-- While RESET is asserted and while there is no power the part takes no request, receives no byte, and takes no
machine event (R156): only a start, a loss of power or a movement of the guard switch, whose level is the
machine's, changes anything. That the guard input follows the switch meanwhile is the model's choice (log entry 15), and
so is that RESET asserted on an inactive part changes nothing (log entry 17). -/
def Obligations.InactivePartTakesNothing : Prop :=
  ∀ (i : Instr) (s : State), s.power ≠ .on → i.wf = true →
    (i ≠ .partStart → (∀ w, i ≠ .powerLoss w) → i ≠ .guardOpened → i ≠ .guardClosed → exec i s = .next s) ∧
    exec .guardOpened s = .next { s with guardInput := .opened } ∧
    exec .guardClosed s = .next { s with guardInput := .closed }

/-- An operand that its port or line cannot carry is refused by name: a body above 240 bytes (R175), a mass above
100,000,000 mg (R119), a scan whose codes have not 2 and 4 characters (R93), and a length byte that is not
above 240 (R160). That such a command stops is the model's choice (log entry 7). -/
def Obligations.OperandsNoLineCarriesAreRefused : Prop :=
  ∀ s : State,
    (∀ p kind tag body crc, 240 < body.length →
      exec (.frameReceived p kind tag body crc) s = .refused (.illFormed "FRAME_RECEIVED")) ∧
    (∀ mass stable overload, 100000000 < mass →
      exec (.reading mass stable overload) s = .refused (.illFormed "READING")) ∧
    (∀ cls base, ¬ (cls.length = 2 ∧ base.length = 4) →
      exec (.scan cls base) s = .refused (.illFormed "SCAN")) ∧
    (∀ p (len : Byte), len.toNat ≤ 240 →
      exec (.lengthByteAbove240 p len) s = .refused (.illFormed "LENGTH_BYTE_ABOVE_240"))

/-! ### Formula arithmetic -/

/-- After c counted tins each component's cumulative count is within half a step of the exact target (R12). -/
def Obligations.CumulativeCountWithinHalfStep : Prop :=
  ∀ (j : Job) (c : Component), j.CumOk → c ∈ j.comps → 0 < c.qSnap * j.vref →
    -((c.qSnap * j.vref : Nat) : Int) ≤ 2 * ((j.counted * c.exact : Nat) - (c.cum * (c.qSnap * j.vref) : Nat) : Int) ∧
    2 * ((j.counted * c.exact : Nat) - (c.cum * (c.qSnap * j.vref) : Nat) : Int) < ((c.qSnap * j.vref : Nat) : Int)

/-- Every tin's step count for a component is floor(E / M) or floor(E / M) + 1, and one count is given for each
component in formula order (R9, R11). -/
def Obligations.TinStepCountIsFloorOrOneMore : Prop :=
  ∀ (j : Job), j.nextSteps.length = j.comps.length ∧
    ∀ (i : Nat) (c : Component) (k : Nat), j.comps[i]? = some c → j.nextSteps[i]? = some k → 0 < c.qSnap * j.vref →
      k = c.exact / (c.qSnap * j.vref) ∨ k = c.exact / (c.qSnap * j.vref) + 1

/-! ### Encodings -/

/-- The bytes of a frame, received one after another from HUNT, are the frame examined whole: no bit of its kind, tag,
body or CRC is dropped or moved, and the receiver is in HUNT again (R160, R161, R175). -/
def Obligations.FrameBytesAreExaminedAsTheFrame : Prop :=
  ∀ (ps : PortState) (kind tag : Byte) (body : Bytes) (crc : BitVec 16), ps.rx = [] → body.length ≤ 240 →
    (frameBytes kind tag body crc).foldl PortState.byteIn ps = ps.hunt.examineFrame kind tag body crc

/-- A number written in w bytes, most significant byte first, is read back wherever it stands in a body (R174). -/
def Obligations.NumberFieldsReadBack : Prop :=
  ∀ (w n : Nat) (before after : Bytes), n < 256 ^ w → uN (before ++ be w n ++ after) before.length w = n

/-! ### Laws that every step keeps -/

/-- Every step keeps each port controller within its bounds: the hold (R162), the answers out (R163), the notice queue
(R166), the attention line (R168) and the gap limit (R160). -/
def Obligations.StepsKeepPortsWithinBounds : Prop :=
  ∀ s t : State, s.PortsOk → step s = .next t → t.PortsOk

/-- Every step keeps the generation counts from 1 to 255 (R58), the result entries in use at 400 or fewer (R64) and the
dispense queue without duplicates (R83). -/
def Obligations.StepsKeepJobTableAndQueueLaws : Prop :=
  ∀ s t : State, step s = .next t →
    (s.GensOk → t.GensOk) ∧ (s.PoolOk → t.PoolOk) ∧ (s.QueueOk → t.QueueOk)

/-- Every step keeps the guard flag present exactly in HALTED (R146), the six settings in their ranges (R153), and
each lane count between 0 and the lane's capacity (R142). -/
def Obligations.StepsKeepLineAndLanesLawful : Prop :=
  ∀ s t : State, step s = .next t → (s.line.Ok → t.line.Ok) ∧ (s.LanesOk → t.LanesOk)

/-- Every step keeps each canister record and its timers, demand and stirrer line lawful (R21 to R25), each piston
charge within the stroke capacity (R99), and the codes of installed canisters distinct (R33). From a state that
meets the reservation law (R45) with the laws it rests on, no level falls below its heel (R22). -/
def Obligations.StepsKeepCanistersAndPumpsLawful : Prop :=
  ∀ s t : State, s.CansOk → s.PumpsOk → step s = .next t →
    t.CansOk ∧ t.PumpsOk ∧ (s.CodesOk → t.CodesOk) ∧ (s.Lawful → t.HeelOk)

/-- Every step keeps at most 12 classes with distinct codes, the same in the class table and in the store (R81, R154,
R155). -/
def Obligations.StepsKeepClassTableAndStoreAgreed : Prop :=
  ∀ s t : State, s.ClassesOk → step s = .next t → t.ClassesOk

/-- Every step keeps each component record at S(c), the cumulative count after the job's counted tins, with a step
divisor above 0 (R7, R8, R15). It keeps with it the laws that span the blocks, `State.Lawful`: each job's claim, and
reserved steps times q never above level less heel (R43, R45); one wait list, and one place on it, for each
WAITING-STOCK job (R48); the tin counts of a job (R63); the queue's handles (R83); the call record and the station's tin
exactly in their states (R89, R97); the mixer records (R129) and the lidder record (R136). -/
def Obligations.StepsKeepCumulativeCounts : Prop :=
  ∀ s t : State, step s = .next t →
    (s.CansOk → s.PumpsOk → s.CumOk → t.CumOk) ∧ (s.Lawful → t.Lawful)

/-- A job keeps what was written at admission, and its counted tins never fall (R61 to R63), until its slot is freed; and
while the part runs a slot is freed only when its job is DONE or CANCELLED (R58, R59). -/
def Obligations.JobsKeepWhatWasAdmitted : Prop :=
  ∀ (s t : State) (i : Fin 24) (j : Job), (s.slot i).job = some j → step s = .next t →
    (∃ k, t.slot i = ⟨(s.slot i).gen, some k⟩ ∧ j.Keeps k) ∨
    ((t.slot i).job = none ∧ (s.power = .on → t.power = .on → j.state = .done ∨ j.state = .cancelled))

/-- What happens on one port leaves another port's receiver, hold and answers as they stand, and only notices reach it
(R159); machine events and timers reach no port but by notices. -/
def Obligations.PortsStandApart : Prop :=
  ∀ (i : Instr) (s t : State) (q : Port), exec i s = .next t →
    (∀ p f, requestOf i = some (p, f) → p ≠ q) →
    (∀ kind tag body crc, i ≠ .frameReceived q kind tag body crc) → i ≠ .frameGapTimeout q → i ≠ .answerSent q →
    i ≠ .frameStartByte q → (∀ len, i ≠ .lengthByteAbove240 q len) →
    (∀ w, i ≠ .resetAssert w) → (∀ w, i ≠ .powerLoss w) → i ≠ .partStart →
    t.port q = { s.port q with notices := (t.port q).notices, lost := (t.port q).lost
                               attention := (t.port q).attention }

/-! ### Ports -/

/-- A complete frame (R161, R162): with an agreeing CRC, over its length, kind, tag and body, and a request kind it joins the hold's tail, or earns OVERRUN
with its kind and tag when 2 frames wait; otherwise it earns FRAME-ERROR with tag 0. Error answers join behind
the answers out, at most 2 of them (R163). The receiver is in HUNT and nothing else changes. With other bytes
received before, this frame does not complete and nothing changes (the model's choice, log entry 6). -/
def Obligations.FrameReceivedJoinsHoldOrEarnsError : Prop :=
  (∀ (kind tag : Byte) (body : Bytes), frameCrc kind tag body =
    (byte body.length :: kind :: tag :: body).foldl (fun (x : BitVec 16) (b : Byte) =>
      (List.range 8).foldl (fun (y : BitVec 16) _ => if y.msb then (y <<< 1) ^^^ 0x1021#16 else y <<< 1)
        (x ^^^ (b.zeroExtend 16 <<< 8))) 0xFFFF#16) ∧
  ∀ (s : State) (p : Port) (kind tag : Byte) (body : Bytes) (crc : BitVec 16),
    s.power = .on → body.length ≤ 240 →
    (¬ (s.port p).rx <+: frameBytes kind tag body crc → exec (.frameReceived p kind tag body crc) s = .next s) ∧
    ((s.port p).rx <+: frameBytes kind tag body crc →
      (∀ k, codeKind k = kind → crc = frameCrc kind tag body → (s.port p).hold.length < 2 →
        exec (.frameReceived p kind tag body crc) s = .next (s.setPort p
          { s.port p with rx := [], gap := none, hold := (s.port p).hold ++ [⟨k, tag, body⟩] })) ∧
      (∀ k, codeKind k = kind → crc = frameCrc kind tag body → 2 ≤ (s.port p).hold.length →
        exec (.frameReceived p kind tag body crc) s = .next (s.setPort p
          { s.port p with
            rx := [], gap := none, out := withError (s.port p).out (kind + 0x80) tag [0x12, 0, 0] })) ∧
      ((crc ≠ frameCrc kind tag body ∨ ∀ k, codeKind k ≠ kind) →
        exec (.frameReceived p kind tag body crc) s = .next (s.setPort p
          { s.port p with rx := [], gap := none, out := withError (s.port p).out 0xFF 0 [0x13, 0, 0] })))

/-- Bytes at the receiver (R160). A byte 0x7E begins a frame in HUNT, is ordinary data within one, restarts the 20 ms gap
limit, and as second CRC byte completes the frame. A length byte above 240 ends the frame with FRAME-ERROR; in
HUNT such a byte is discarded. The gap limit's end discards a partial frame without answer. -/
def Obligations.ReceiverTakesBytesAndGaps : Prop :=
  ∀ (s : State) (p : Port), s.power = .on →
    exec (.frameGapTimeout p) s = .next (s.setPort p { s.port p with rx := [], gap := none }) ∧
    ((s.port p).rx = [] →
      exec (.frameStartByte p) s = .next (s.setPort p { s.port p with rx := [0x7E], gap := some 20 })) ∧
    (∀ x, (s.port p).rx = [x] →
      exec (.frameStartByte p) s = .next (s.setPort p { s.port p with rx := [x, 0x7E], gap := some 20 })) ∧
    (∀ x len l, (s.port p).rx = x :: len :: l → l.length < len.toNat + 3 →
      exec (.frameStartByte p) s = .next (s.setPort p
        { s.port p with rx := x :: len :: (l ++ [0x7E]), gap := some 20 })) ∧
    (∀ kind tag body crc, body.length ≤ 240 → (s.port p).rx ++ [0x7E] = frameBytes kind tag body crc →
      exec (.frameStartByte p) s = exec (.frameReceived p kind tag body crc) s) ∧
    (∀ b : Byte, 240 < b.toNat →
      ((s.port p).rx = [] → exec (.lengthByteAbove240 p b) s = .next s) ∧
      (∀ x, (s.port p).rx = [x] →
        exec (.lengthByteAbove240 p b) s = .next (s.setPort p
          { s.port p with rx := [], gap := none, out := withError (s.port p).out 0xFF 0 [0x13, 0, 0] })) ∧
      (∀ x len l, (s.port p).rx = x :: len :: l → l.length < len.toNat + 3 →
        exec (.lengthByteAbove240 p b) s = .next (s.setPort p
          { s.port p with rx := x :: len :: (l ++ [b]), gap := some 20 })) ∧
      (∀ kind tag body crc, body.length ≤ 240 → (s.port p).rx ++ [b] = frameBytes kind tag body crc →
        exec (.lengthByteAbove240 p b) s = exec (.frameReceived p kind tag body crc) s))

/-- Answers are sent in the order produced (R163): the oldest answer out goes to the link, and with none out nothing is
sent. -/
def Obligations.AnswersAreSentInOrder : Prop :=
  ∀ (s : State) (p : Port), s.power = .on →
    ((s.port p).out = [] → exec (.answerSent p) s = .next s) ∧
    (∀ a rest, (s.port p).out = a :: rest →
      exec (.answerSent p) s = .next { s.setPort p { s.port p with out := rest } with
        sent := s.sent ++ [.answer p a] })

/-- A request from a port whose role does not allow it is answered ROLE and changes nothing else (R164). -/
def Obligations.RequestOutsideItsRoleIsAnsweredRole : Prop :=
  ∀ (i : Instr) (s : State) (p : Port) (k : ReqKind) (tag : Byte) (body : Bytes),
    requestOf i = some (p, ⟨k, tag, body⟩) → s.Takes p k tag body →
    (if p = .w then k ∈ [.submit, .cancel, .resume, .retire]
      else k ∈ [.install, .remove, .calibrate, .refillBegin, .refillEnd, .adjust, .setTinClass, .setLine]) →
    exec i s = .next (s.replied p k tag [1, 0, 0])

/-- A request that its port does not take now leaves everything as it stands: the part is inactive, another frame or none
is at the head of the hold, or an earlier request's answer is out (R163). That such a row changes nothing is
the model's choice (log entry 1). -/
def Obligations.RequestNotTakenChangesNothing : Prop :=
  ∀ (i : Instr) (s : State) (p : Port) (k : ReqKind) (tag : Byte) (body : Bytes),
    requestOf i = some (p, ⟨k, tag, body⟩) → ¬ s.Takes p k tag body → exec i s = .next s

/-- Every request taken completes with one answer, of the request's kind and tag, behind the answers out (R163, R176);
its frame has left the hold (R162); and a refused request, whose answer code is not OK, changes nothing else
(R60, R164). -/
def Obligations.EveryTakenRequestIsAnsweredOnce : Prop :=
  ∀ (i : Instr) (s : State) (p : Port) (k : ReqKind) (tag : Byte) (body : Bytes),
    requestOf i = some (p, ⟨k, tag, body⟩) → s.Takes p k tag body →
    ∃ t b, exec i s = .next t ∧
      (t.port p).out = (s.port p).out ++ [{ kind := codeKind k + 0x80, tag := tag, body := b, isError := false }] ∧
      (t.port p).hold = (s.port p).hold.tail ∧ 3 ≤ b.length ∧
      (b.head? ≠ some 0 → t = s.replied p k tag b)

/-! ### Canister requests -/

/-- INSTALL of an in-range record at a vacant position (R33): the record stands there SETTLED with change count 0, a
level above capacity is clamped to it, its pump record is IDLE with charge 0 (R99), the record is stored (R41),
and the latch, examined at once, disarms with CANISTER-LOW at or below the low mark (R31). Its body stands as R178 lays
it out. The checks run in the order of R32 and R33: FORMAT for a wrong length or a text that is not printable, RANGE of
the position, STATE at a position that is not VACANT, FORMAT for a code of spaces, DUPLICATE for a code that another
canister bears, RANGE for a field outside its range or a level below the heel. The model's choices are that RANGE and
the code of spaces name their field (log entries 47 and 9), a level below the heel field 14, and which of several fields
at fault is named (log entries 39 and 43). -/
def Obligations.InstallFillsAVacantPosition : Prop :=
  (∀ (s : State) (tag : Byte) (body : Bytes), s.Takes .w .install tag body →
    let r := installRecord body
    let refused := fun detail : Bytes => exec (.install .w tag body) s = .next (s.replied .w .install tag detail)
    (body.length ≠ 42 → refused [0x02, 0, 0]) ∧
    (body.length = 42 → (printable r.code = false → refused [0x02, 2, 0]) ∧
      (printable r.code = true → (printable r.lot = false → refused [0x02, 15, 0]) ∧
        (printable r.lot = true → (15 < u8 body 0 → refused [0x03, 1, 0]) ∧
          ∀ p : Pos, u8 body 0 = p.val → ((s.can p).state ≠ .vacant → refused [0x06, 0, 0]) ∧
            ((s.can p).state = .vacant → (blankText r.code = true → refused [0x02, 2, 0]) ∧
              (blankText r.code = false →
                ((∃ q, (s.can q).kept.installed = true ∧ (s.can q).kept.code = r.code) → refused [0x0E, 0, 0]) ∧
                ((∀ q, (s.can q).kept.installed = true → (s.can q).kept.code ≠ r.code) →
                  ∀ pre f post, r.installFields = pre ++ (f, false) :: post → (∀ x ∈ pre, x.2 = true) →
                    refused [0x03, byte f, 0]))))))) ∧
  (∀ (p : Byte) (r : CanRecord), r.code.length = 3 → r.lot.length = 8 → r.installed = true → r.count = 0 →
    r.capacity < 4294967296 → r.heel < 4294967296 → r.lowMark < 4294967296 → r.level < 4294967296 → r.q < 65536 →
    r.density < 65536 → r.stroke < 65536 → r.pulse < 65536 → r.dwell < 65536 → r.recircTime < 65536 →
    r.settleLimit < 256 → r.keepStir < 256 →
    installRecord (p :: (r.code ++ be 4 r.capacity ++ be 4 r.heel ++ be 4 r.lowMark ++ be 2 r.q ++ be 2 r.density ++
      be 2 r.stroke ++ be 2 r.pulse ++ be 2 r.dwell ++ [byte r.settleLimit] ++ be 2 r.recircTime ++ [byte r.keepStir] ++
      be 4 r.level ++ r.lot)) = r) ∧
  ∀ (s : State) (tag : Byte) (body : Bytes) (r : CanRecord) (p : Pos),
    s.Takes .w .install tag body → body.length = 42 → u8 body 0 = p.val → r = installRecord body →
    (s.can p).state = .vacant → r.Declared → printable r.code = true → blankText r.code = false →
    printable r.lot = true →
    ((∃ q, (s.can q).kept.installed = true ∧ (s.can q).kept.code = r.code) →
      exec (.install .w tag body) s = .next (s.replied .w .install tag [0x0E, 0, 0])) ∧
    ((∀ q, (s.can q).kept.installed = true → (s.can q).kept.code ≠ r.code) →
      (r.level < r.heel → exec (.install .w tag body) s = .next (s.replied .w .install tag [0x03, 14, 0])) ∧
      (r.heel ≤ r.level →
        let level := min r.level r.capacity
        let armed := decide (r.lowMark < level - r.heel)
        let t : State := ((s.popHold .w).putCan p
          { kept := { r with level := level }, state := .settled, latch := armed, demand := false
            settleTimer := none, keepTimer := none, stirrer := false }).setPump p { charge := 0, state := .idle }
        exec (.install .w tag body) s = .next
          ((if armed then t else t.notify .w (.canisterLow p (level - r.heel))).answered .w .install tag
            ([byte p.val, 0, 0] ++ be 4 level ++ [flag armed]))))

/-- REMOVE of an installed canister (R34): COVERED while a job that is not DONE or CANCELLED names it, then BUSY
while its pump is not IDLE; otherwise the position takes its vacant values, also in the store (R41), and its
pump record is IDLE with charge 0: R99 gives a vacant position that record, and that REMOVE sets it is the model's
choice (log entry 21). At a vacant position it is refused STATE, with another body length FORMAT, and with a position
above 15 RANGE (R32), which names it (the model's choice, log entry 47). -/
def Obligations.RemoveVacatesAPosition : Prop :=
  (∀ (s : State) (tag : Byte) (body : Bytes), s.Takes .w .remove tag body →
    (body.length ≠ 1 → exec (.remove .w tag body) s = .next (s.replied .w .remove tag [0x02, 0, 0])) ∧
    (body.length = 1 → 15 < u8 body 0 →
      exec (.remove .w tag body) s = .next (s.replied .w .remove tag [0x03, 1, 0]))) ∧
  ∀ (s : State) (tag : Byte) (p : Pos), s.Takes .w .remove tag [byte p.val] →
    ((s.can p).state = .vacant → exec (.remove .w tag [byte p.val]) s = .next (s.replied .w .remove tag [0x06, 0, 0])) ∧
    ((s.can p).state ≠ .vacant →
      ((∃ i j c, (s.slot i).job = some j ∧ j.state ≠ .done ∧ j.state ≠ .cancelled ∧ c ∈ j.comps ∧ c.pos = p) →
        exec (.remove .w tag [byte p.val]) s = .next (s.replied .w .remove tag [0x10, 0, 0])) ∧
      ((∀ i j c, (s.slot i).job = some j → j.state ≠ .done → j.state ≠ .cancelled → c ∈ j.comps → c.pos ≠ p) →
        ((s.pump p).state ≠ .idle →
          exec (.remove .w tag [byte p.val]) s = .next (s.replied .w .remove tag [0x11, 0, 0])) ∧
        ((s.pump p).state = .idle →
          exec (.remove .w tag [byte p.val]) s = .next
            ((((s.popHold .w).putCan p Canister.vacant).setPump p { charge := 0, state := .idle }).answered .w .remove
              tag [byte p.val]))))

/-- CALIBRATE of an installed canister with both values in range (R35): COVERED when the reserved steps at the new q
exceed usable volume; otherwise q and density are replaced, the change count rises by 1, after 65,535 to 0
(R23), the record is stored, and a smaller q starts a walk on the canister (R49). Before that it is refused FORMAT for
another body length, RANGE for a position above 15, STATE at a vacant position and RANGE for a value outside its range,
in this order (R32, R35); RANGE names the field, q with both values at fault (the model's choices, log entries 47
and 39). -/
def Obligations.CalibrateReplacesStepVolumeAndDensity : Prop :=
  (∀ (s : State) (tag : Byte) (body : Bytes), s.Takes .w .calibrate tag body →
    let refused := fun detail : Bytes => exec (.calibrate .w tag body) s = .next (s.replied .w .calibrate tag detail)
    let q := uN body 1 2
    let d := uN body 3 2
    (body.length ≠ 5 → refused [0x02, 0, 0]) ∧
    (body.length = 5 → (15 < u8 body 0 → refused [0x03, 1, 0]) ∧
      ∀ p : Pos, u8 body 0 = p.val → ((s.can p).state = .vacant → refused [0x06, 0, 0]) ∧
        ((s.can p).state ≠ .vacant → (q < 100 ∨ 60000 < q → refused [0x03, 2, 0]) ∧
          (100 ≤ q → q ≤ 60000 → d < 800 ∨ 2500 < d → refused [0x03, 3, 0])))) ∧
  ∀ (s : State) (tag : Byte) (p : Pos) (q d : Nat),
    s.Takes .w .calibrate tag (byte p.val :: (be 2 q ++ be 2 d)) → (s.can p).state ≠ .vacant →
    100 ≤ q → q ≤ 60000 → 800 ≤ d → d ≤ 2500 →
    ((s.can p).kept.level - (s.can p).kept.heel < s.reservedSteps p * q →
      exec (.calibrate .w tag (byte p.val :: (be 2 q ++ be 2 d))) s =
        .next (s.replied .w .calibrate tag [0x10, 0, 0])) ∧
    (s.reservedSteps p * q ≤ (s.can p).kept.level - (s.can p).kept.heel →
      let count := ((s.can p).kept.count + 1) % 65536
      let t : State := (s.popHold .w).putCan p
        { s.can p with kept := { (s.can p).kept with q := q, density := d, count := count } }
      exec (.calibrate .w tag (byte p.val :: (be 2 q ++ be 2 d))) s = .next
        (((if q < (s.can p).kept.q then t.walk p else t).selectAfter (s.popHold .w)).answered .w .calibrate tag
          (byte p.val :: be 2 count)))

/-- REFILL-BEGIN locks a canister whose pump is IDLE and that neither the called tin nor the station tin still needs,
and is refused BUSY otherwise (R36): the called tin needs each canister its next counts give a step (R9), the station
tin, while NORMAL in TARING or DISPENSING, each with steps not yet dispensed (R117). REFILL-END takes no more than the capacity less the level, takes the lot id,
returns the canister to SETTLED, raises the change count, re-arms the latch above the low mark, stores the
record and starts a walk (R37, R38, R31), and the event ends with a selection (R85). Both are refused FORMAT for another
body length or a lot id that is not printable, RANGE for a position above 15, then STATE: REFILL-BEGIN at a VACANT or
LOCKED position, REFILL-END at one not LOCKED (R32, R36, R37). That RANGE names the position and that the length precedes
the lot id are the model's choices (log entries 47 and 43). -/
def Obligations.RefillLocksAndFillsACanister : Prop :=
  (∀ (s : State) (tag : Byte) (body : Bytes),
    (s.Takes .w .refillBegin tag body →
      let refused := fun detail : Bytes =>
        exec (.refillBegin .w tag body) s = .next (s.replied .w .refillBegin tag detail)
      (body.length ≠ 1 → refused [0x02, 0, 0]) ∧
      (body.length = 1 → (15 < u8 body 0 → refused [0x03, 1, 0]) ∧
        ∀ p : Pos, u8 body 0 = p.val → (s.can p).state = .vacant ∨ (s.can p).state = .locked →
          refused [0x06, 0, 0])) ∧
    (s.Takes .w .refillEnd tag body →
      let refused := fun detail : Bytes => exec (.refillEnd .w tag body) s = .next (s.replied .w .refillEnd tag detail)
      let lot := (body.drop 5).take 8
      (body.length ≠ 13 → refused [0x02, 0, 0]) ∧
      (body.length = 13 → (printable lot = false → refused [0x02, 3, 0]) ∧
        (printable lot = true → (15 < u8 body 0 → refused [0x03, 1, 0]) ∧
          ∀ p : Pos, u8 body 0 = p.val → (s.can p).state ≠ .locked → refused [0x06, 0, 0])))) ∧
  ∀ (s : State) (tag : Byte) (p : Pos),
    (s.Takes .w .refillBegin tag [byte p.val] → (s.can p).state ≠ .vacant → (s.can p).state ≠ .locked →
      (s.calledNeeds p = true ∨ s.stationNeeds p = true ∨ (s.pump p).state ≠ .idle →
        exec (.refillBegin .w tag [byte p.val]) s = .next (s.replied .w .refillBegin tag [0x11, 0, 0])) ∧
      (s.calledNeeds p = false → s.stationNeeds p = false → (s.pump p).state = .idle →
        exec (.refillBegin .w tag [byte p.val]) s = .next
          (((s.popHold .w).setCan p { s.can p with
            state := .locked, demand := false, stirrer := false, settleTimer := none, keepTimer := none }).answered
              .w .refillBegin tag [byte p.val, 5]))) ∧
    (∀ (v : Nat) (lot : Text), v < 4294967296 → lot.length = 8 → printable lot = true →
      s.Takes .w .refillEnd tag (byte p.val :: (be 4 v ++ lot)) → (s.can p).state = .locked →
      let c := (s.can p).kept
      let taken := min v (c.capacity - c.level)
      let k : CanRecord := { c with level := c.level + taken, lot := lot, count := (c.count + 1) % 65536 }
      let t : State := (s.popHold .w).putCan p
        { s.can p with
          kept := k, state := .settled, stirrer := false, settleTimer := none, keepTimer := none
          latch := (s.can p).latch || decide (k.lowMark < k.level - k.heel) }
      exec (.refillEnd .w tag (byte p.val :: (be 4 v ++ lot))) s = .next
        (((t.walk p).selectAfter (s.popHold .w)).answered .w .refillEnd tag
          (byte p.val :: (be 4 taken ++ be 4 k.level ++ be 2 k.count ++ [flag (lot != c.lot)])))) ∧
    (s.call = none → s.calledNeeds p = false) ∧ (s.tin = none → s.stationNeeds p = false) ∧
    (∀ (c : Call) (j : Job), s.call = some c → s.job? c.handle = some j →
      (j.comps.map fun x : Component => x.pos).Nodup →
      (s.calledNeeds p = true ↔ ∃ x ∈ j.comps, x.pos = p ∧
        cumSteps j.counted x.exact (x.qSnap * j.vref) < cumSteps (j.counted + 1) x.exact (x.qSnap * j.vref))) ∧
    (∀ (t : TinCtx) (j : Job), s.tin = some t → s.job? t.handle = some j →
      (j.comps.map fun x : Component => x.pos).Nodup → t.steps.length = j.comps.length →
      t.dispensed.length = j.comps.length →
      (s.stationNeeds p = true ↔ t.route = .normal ∧ (s.station = .taring ∨ s.station = .dispensing) ∧
        ∃ (i : Nat) (x : Component), j.comps[i]? = some x ∧ x.pos = p ∧ t.dispensed.getD i 0 < t.steps.getD i 0))

/-- ADJUST of an installed canister (R39): STALE, with the present count and level, unless the count given is the
canister's; COVERED when the level's usable volume is below the reserved volume; otherwise the level is the one
given, the change count rises and the record is stored. A fall examines the latch and a rise re-arms it above
the low mark (R31) and starts a walk (R49). It is refused FORMAT for another body length, RANGE for a position above 15,
STATE at a vacant position (R32), and, the count agreeing, RANGE for a level below the heel or above the capacity; that
RANGE names the field is the model's choice (log entry 47). -/
def Obligations.AdjustSetsTheLevel : Prop :=
  (∀ (s : State) (tag : Byte) (body : Bytes), s.Takes .w .adjust tag body →
    let refused := fun detail : Bytes => exec (.adjust .w tag body) s = .next (s.replied .w .adjust tag detail)
    (body.length ≠ 7 → refused [0x02, 0, 0]) ∧
    (body.length = 7 → (15 < u8 body 0 → refused [0x03, 1, 0]) ∧
      ∀ p : Pos, u8 body 0 = p.val → let c := (s.can p).kept
        ((s.can p).state = .vacant → refused [0x06, 0, 0]) ∧
        ((s.can p).state ≠ .vacant → uN body 1 2 = c.count → uN body 3 4 < c.heel ∨ c.capacity < uN body 3 4 →
          refused [0x03, 3, 0]))) ∧
  ∀ (s : State) (tag : Byte) (p : Pos) (n v : Nat), n < 65536 → v < 4294967296 →
    s.Takes .w .adjust tag (byte p.val :: (be 2 n ++ be 4 v)) → (s.can p).state ≠ .vacant →
    let c := s.can p
    let i := Instr.adjust .w tag (byte p.val :: (be 2 n ++ be 4 v))
    (n ≠ c.kept.count →
      exec i s = .next (s.replied .w .adjust tag ([0x0F, 0, 0] ++ be 2 c.kept.count ++ be 4 c.kept.level))) ∧
    (n = c.kept.count → c.kept.heel ≤ v → v ≤ c.kept.capacity →
      (v - c.kept.heel < s.reservedSteps p * c.kept.q → exec i s = .next (s.replied .w .adjust tag [0x10, 0, 0])) ∧
      (s.reservedSteps p * c.kept.q ≤ v - c.kept.heel →
        let low := decide (v - c.kept.heel ≤ c.kept.lowMark)
        let put : Bool → State := fun b => (s.popHold .w).putCan p
          { c with kept := { c.kept with level := v, count := (c.kept.count + 1) % 65536 }, latch := b }
        let t : State :=
          if v < c.kept.level then
            if c.latch && low then (put false).notify .w (.canisterLow p (v - c.kept.heel)) else put c.latch
          else if c.kept.level < v then (put (c.latch || !low)).walk p
          else put c.latch
        exec i s = .next ((t.selectAfter (s.popHold .w)).answered .w .adjust tag
          (byte p.val :: (be 2 ((c.kept.count + 1) % 65536) ++ be 4 v)))))

/-! ### Requests that read -/

/-- READ-CANISTER, STATUS, READ-JOB and READ-TIN answer OK with the record they name as it stands and change nothing
(R40, R173, R79, R80). A counter port reads its own jobs and no others, port W every job (R60): READ-JOB and READ-TIN are
refused FORMAT for another body length, RANGE for a handle that is none, NO-JOB for an empty slot or another generation
(R59), NOT-OWNER, and RANGE for a part above 6 or the component count, an index of 0 or above the tin count. The other two
are refused FORMAT for another body length, READ-CANISTER RANGE for a position above 15 (R32). That RANGE names the field
(log entry 47) and that a part above 6 or an index of 0 precedes NO-JOB (log entry 43) are the model's choices. -/
def Obligations.ReadingRequestsChangeNothing : Prop :=
  ∀ (s : State) (p : Port) (tag : Byte),
    let reads := fun (k : ReqKind) (row : Bytes → Instr) (wrong : Nat → Prop) (last : Job → Nat) =>
      ∀ body, s.Takes p k tag body →
        let refused := fun detail : Bytes => exec (row body) s = .next (s.replied p k tag detail)
        (body.length ≠ 3 → refused [0x02, 0, 0]) ∧
        (body.length = 3 → (23 < u8 body 0 ∨ u8 body 1 = 0 → refused [0x03, 1, 0]) ∧
          (u8 body 0 ≤ 23 → 1 ≤ u8 body 1 → wrong (u8 body 2) → refused [0x03, 2, 0]) ∧
          (¬ wrong (u8 body 2) → (∀ detail, s.JobRefused p body detail → refused detail) ∧
            ∀ (h : Handle) (j : Job), s.job? h = some j → p = .w ∨ j.owner = p → u8 body 0 = h.slot.val →
              u8 body 1 = h.gen → 1 ≤ h.gen → last j < u8 body 2 → refused [0x03, 2, 0]))
    reads .readJob (Instr.readJob p tag) (fun i => 6 < i) (fun j => j.comps.length) ∧
    reads .readTin (Instr.readTin p tag) (fun i => i = 0) (fun j => j.n) ∧
    (∀ body, s.Takes p .readCanister tag body →
      (body.length ≠ 1 → exec (.readCanister p tag body) s = .next (s.replied p .readCanister tag [0x02, 0, 0])) ∧
      (body.length = 1 → 15 < u8 body 0 →
        exec (.readCanister p tag body) s = .next (s.replied p .readCanister tag [0x03, 1, 0]))) ∧
    (∀ body, s.Takes p .status tag body → body ≠ [] →
      exec (.status p tag body) s = .next (s.replied p .status tag [0x02, 0, 0])) ∧
    (∀ q : Pos, s.Takes p .readCanister tag [byte q.val] →
      exec (.readCanister p tag [byte q.val]) s =
        .next (s.replied p .readCanister tag ([0, 0, 0] ++ canisterSummary s q))) ∧
    (s.Takes p .status tag [] →
      exec (.status p tag []) s = .next (s.replied p .status tag ([0, 0, 0] ++ lineStatus s p))) ∧
    (∀ (h : Handle) (j : Job), s.job? h = some j → 1 ≤ h.gen → h.gen ≤ 255 → p = .w ∨ j.owner = p →
      (s.Takes p .readJob tag [byte h.slot.val, byte h.gen, 0] →
        exec (.readJob p tag [byte h.slot.val, byte h.gen, 0]) s =
          .next (s.replied p .readJob tag ([0, 0, 0] ++ jobPart0 s h j))) ∧
      (∀ (k : Nat) (c : Component), k < 6 → j.comps[k]? = some c →
        s.Takes p .readJob tag [byte h.slot.val, byte h.gen, byte (k + 1)] →
        exec (.readJob p tag [byte h.slot.val, byte h.gen, byte (k + 1)]) s =
          .next (s.replied p .readJob tag ([0, 0, 0] ++ jobPart j (k + 1) c))) ∧
      (∀ (k : Nat) (e : TinResult), k < j.n → j.n ≤ 99 → j.results[k]? = some e →
        s.Takes p .readTin tag [byte h.slot.val, byte h.gen, byte (k + 1)] →
        exec (.readTin p tag [byte h.slot.val, byte h.gen, byte (k + 1)]) s =
          .next (s.replied p .readTin tag ([0, 0, 0] ++ tinEntry s h j e))))

/-- The records have the lengths of their tables and hold every field at the offset listed there: the canister summary of
57 bytes (R184), the parts of a job summary of 67 and 42 bytes (R181), the job summary of FIND of 40 bytes (R180), the
tin result entry of 43 (R185), the line status of 168 (R182) and the label record of 69 (R186). A notice record is the
kind code, the level, the content's length and the content (R183). Each code field takes the values of R187. Reserved
volume is the sum of all jobs' reserved steps times q, free volume what is left of usable volume (R44). That STATUS
shows 0 seconds with no call is the model's choice (log entry 24), and so is that READ-TIN shows a PENDING entry's
rejected or spoiled tin as at the station while it stands there (log entry 48). -/
def Obligations.RecordsHaveTheirLayouts : Prop :=
  (∀ (s : State) (p : Port) (q : Pos) (h : Handle) (j : Job) (c : Component) (e : TinResult) (l : Label) (i : Nat),
    (s.can q).kept.code.length = 3 → (s.can q).kept.lot.length = 8 → j.orderRef.length = 12 →
    j.colour.length = 16 → j.base.length = 4 → j.cls.length = 2 → c.code.length = 3 → c.amount.length = 7 →
    c.lotSnap.length = 8 → l.orderRef.length = 12 → l.colour.length = 16 → l.cls.length = 2 → l.base.length = 4 →
    (∀ x ∈ l.lotCodes, x.length = 3) →
    (canisterSummary s q).length = 57 ∧ (jobPart0 s h j).length = 67 ∧ (jobPart j i c).length = 42 ∧
    (jobSummary s h j).length = 40 ∧ (tinEntry s h j e).length = 43 ∧ (lineStatus s p).length = 168 ∧
    l.bytes.length = 69 ∧
    ((s.can q).kept.level < 4294967296 → uN (canisterSummary s q) 26 4 = (s.can q).kept.level) ∧
    ((s.can q).kept.count < 65536 → uN (canisterSummary s q) 46 2 = (s.can q).kept.count) ∧
    (s.pump q).charge % 65536 = uN (canisterSummary s q) 51 2 ∧
    (j.vref < 65536 → uN (jobPart0 s h j) 39 2 = j.vref) ∧
    (j.counted < 256 → u8 (jobPart0 s h j) 47 = j.counted) ∧
    (c.cum < 4294967296 → uN (jobPart j i c) 19 4 = c.cum) ∧
    (e.attempts < 256 → u8 (tinEntry s h j e) 4 = e.attempts) ∧
    (lineStatus s p).getD 69 0 = codeStation s.station ∧
    (lineStatus s p).getD 167 0 = flag (s.port p).lost ∧
    l.bytes.getD 68 0 = codeWord l.word ∧
    let handle := fun h : Handle => [byte h.slot.val, byte h.gen]
    let maybe := fun (w : Nat) (o : Option Bytes) => match o with
      | some f => (1 : Byte) :: f
      | none => List.replicate (w + 1) 0
    let pad := fun (w : Nat) (f : Bytes) => f ++ List.replicate (w - f.length) 0
    let signed := fun z : Int => be 4 (z % 4294967296).toNat
    let marksByte := fun m : Option Marks => match m with
      | some m => byte ((if m.w then 1 else 0) + (if m.n then 2 else 0) + (if m.l then 4 else 0) + (if m.s then 8 else 0))
      | none => 0
    let tinAt := fun t : Option TinCtx => maybe 3 (t.map fun t => handle t.handle ++ [byte t.index])
    (let k := (s.can q).kept
     let usable := k.level - k.heel
     let steps := ((List.finRange 24).map fun i => match (s.slot i).job with
       | some j => ((j.comps.filter fun c : Component => c.pos = q).map fun c : Component => c.reserved).sum
       | none => 0).sum
     s.reservedSteps q = steps ∧ s.freeVol q = usable - steps * k.q ∧
     ∀ x ∈ [(0, [byte q.val]), (1, [flag k.installed]), (2, [codeCanState (s.can q).state]), (3, k.code), (6, k.lot),
       (14, be 4 k.capacity), (18, be 4 k.heel), (22, be 4 k.lowMark), (26, be 4 k.level), (30, be 4 usable),
       (34, be 4 (steps * k.q)), (38, be 4 (usable - steps * k.q)), (42, be 2 k.q), (44, be 2 k.density),
       (46, be 2 k.count), (48, [flag (s.can q).latch]), (49, [flag (s.can q).demand]),
       (50, [codePumpState (s.pump q).state]), (51, be 2 (s.pump q).charge), (53, [byte (s.waitList q).length]),
       (54, maybe 2 ((s.waitList q).head?.map handle))], holdsAt (canisterSummary s q) x.1 x.2) ∧
    (let on := fun (place : Nat) (t : Option TinCtx) => match t with
       | some t => if t.handle = h then [byte place, byte t.index] else []
       | none => []
     let line := on 1 s.tin ++ on 2 s.m1.tin ++ on 3 s.m2.tin ++ on 4 s.lidder.tin
     (∀ x ∈ [(0, handle h), (2, [codePort j.owner]), (3, [codeJobState j.state]), (4, [codeSuspension j.cause]),
       (5, j.orderRef), (17, j.colour), (33, j.base), (37, j.cls), (39, be 2 j.vref), (41, [byte j.n]),
       (42, [codeDisposition j.dSubstep]), (43, [codeDisposition j.dWeighOut]), (44, [codeDisposition j.dWeighNone]),
       (45, [codeDisposition j.dLotBreak]), (46, [codeShortage j.shortage]), (47, [byte j.counted]),
       (48, [byte j.started]), (49, [byte j.delivered]), (50, [byte j.expiries]), (51, [flag j.pendingRe.isSome]),
       (55, match s.call with
         | some c => if c.handle = h then [1, byte c.index] else [0, 0]
         | none => [0, 0]),
       (57, [byte (line.length / 2)]), (58, pad 8 line), (66, [byte j.comps.length])],
       holdsAt (jobPart0 s h j) x.1 x.2) ∧
     ((∀ r, h ∉ s.waitList r) → holdsAt (jobPart0 s h j) 52 [0, 0, 0]) ∧
     ∀ (r : Pos) (pre post : List Handle), s.waitList r = pre ++ h :: post → h ∉ pre → (∀ o, o < r → h ∉ s.waitList o) →
       holdsAt (jobPart0 s h j) 52 [1, byte r.val, byte (pre.length + 1)]) ∧
    (∀ x ∈ [(0, [byte i]), (1, [byte c.pos.val]), (2, c.code), (5, c.amount), (12, [byte c.scale]), (13, be 4 c.a),
      (17, be 2 c.qSnap), (19, be 4 c.cum), (23, be 4 c.reserved), (27, c.lotSnap), (35, [flag c.substep]),
      (36, [flag c.lotBreak]), (37, maybe 4 (j.pendingRe.map fun l => be 4 (l.getD (i - 1) 0)))],
      holdsAt (jobPart j i c) x.1 x.2) ∧
    (∀ x ∈ [(0, handle h), (2, [codePort j.owner]), (3, [codeJobState j.state]), (4, [codeSuspension j.cause]),
      (5, j.orderRef), (17, j.colour), (33, j.cls), (35, [byte j.n]), (36, [byte j.counted]), (37, [byte j.started]),
      (38, [byte j.delivered]),
      (39, [if j.state ∈ [JobState.cancelling, .done, .cancelled] then 0
        else byte (j.n - j.started - (if ∃ c, s.call = some c ∧ c.handle = h then 1 else 0))])],
      holdsAt (jobSummary s h j) x.1 x.2) ∧
    ((∀ l, e.steps = some l → l.length ≤ 6) →
      ∀ x ∈ [(0, handle h), (2, [byte e.index]), (3, [codeOutcome e.outcome]), (4, [byte e.attempts]),
        (5, [byte j.comps.length]), (6, pad 24 ((e.steps.getD []).flatMap (be 4))), (30, maybe 4 (e.expected.map (be 4))),
        (35, maybe 4 (e.net.map signed)), (40, [marksByte e.marks]), (41, [codeLane e.lane]),
        (42, [if e.outcome ≠ .pending then 0
          else if ∃ c, s.call = some c ∧ c.handle = h ∧ c.index = e.index then 1
          else if ∃ t, s.tin = some t ∧ t.handle = h ∧ t.index = e.index then 2 else 0])],
        holdsAt (tinEntry s h j e) x.1 x.2) ∧
    (s.queue.length ≤ 24 → s.lidder.claims.length ≤ 3 →
      let v := s.line.settings
      ∀ x ∈ [(0, [codeLineMode s.line.mode]), (1, maybe 1 (s.line.guard.map fun g => [codeGuard g])),
        (3, be 2 v.callTimeout), (5, [byte v.quota]), (6, be 2 v.scaleSettle), (8, be 2 v.weighFloor),
        (10, be 2 v.absTol), (12, [byte v.relTol]), (13, [byte s.queue.length]), (14, pad 48 (s.queue.flatMap handle)),
        (62, [byte s.quota]), (63, maybe 3 (s.call.map fun c => handle c.handle ++ [byte c.index])),
        (67, be 2 (s.callTimer.getD 0 / 1000)), (69, [codeStation s.station]), (70, tinAt s.tin),
        (82, [codeCapture s.capture]), (83, [flag (s.tin.bind fun t => t.tare).isSome]),
        (84, [codeMixState s.m1.state]), (85, tinAt s.m1.tin), (89, [codeMixState s.m2.state]), (90, tinAt s.m2.tin),
        (94, [codeLidState s.lidder.state]), (95, tinAt s.lidder.tin), (99, [codeLane s.lidder.dest]),
        (100, [byte s.lidder.claims.length]), (101, pad 3 (s.lidder.claims.map codeSource)),
        (104, [byte s.lanes.la, byte s.lanes.lb, byte s.lanes.lc, byte s.lanes.lx]),
        (132, be 2 (400 - (s.jobs.map fun x => x.2.n).sum)), (166, [byte (s.port p).notices.length]),
        (167, [flag (s.port p).lost])], holdsAt (lineStatus s p) x.1 x.2) ∧
    (∀ d : ChanId, holdsAt (lineStatus s p) (74 + 2 * d.val) [codeChan (s.chan d).state,
      if (s.chan d).state = .free then 0 else byte (s.chan d).pos.val]) ∧
    (∀ k : Fin 24, holdsAt (lineStatus s p) (108 + k.val) [match (s.slot k).job with
      | some j => codeJobState j.state
      | none => 0]) ∧
    (∀ r : Pos, holdsAt (lineStatus s p) (134 + r.val) [codeCanState (s.can r).state] ∧
      holdsAt (lineStatus s p) (150 + r.val) [byte (s.waitList r).length]) ∧
    (l.lotCodes.length ≤ 6 →
      ∀ x ∈ [(0, l.orderRef), (12, l.colour), (28, handle l.handle), (30, [byte l.index]), (31, [byte l.count]),
        (32, l.cls), (34, l.base), (38, [byte l.lotCodes.length]), (39, pad 18 l.lotCodes.flatten),
        (57, [marksByte (some l.marks)]), (58, maybe 4 (l.expected.map (be 4))), (63, maybe 4 (l.net.map signed)),
        (68, [codeWord l.word])], holdsAt l.bytes x.1 x.2)) ∧
  (∀ (g : GuardState) (m : MixerId) (h : Handle) (i : Nat) (st : JobState) (c : Cause) (cls base : Text) (x : Lane)
    (k : Marks) (p : Pos) (v steps d : Nat) (mode : LineMode), cls.length = 2 → base.length = 4 →
    let name := [byte h.slot.val, byte h.gen]
    noticeRecord (.guard g) = [1, 3, 1, codeGuard g] ∧
    noticeRecord (.mixerFault m (some (h, i))) = [2, 3, 5, codeMixer m, 1] ++ name ++ [byte i] ∧
    noticeRecord (.mixerFault m none) = [2, 3, 5, codeMixer m, 0, 0, 0, 0] ∧
    noticeRecord (.jobState h st c) = [3, 2, 4] ++ name ++ [codeJobState st, codeCause c] ∧
    noticeRecord (.tinCall h i cls base) = [4, 2, 9] ++ name ++ [byte i] ++ cls ++ base ∧
    noticeRecord (.wrongTin cls base) = [5, 2, 6] ++ cls ++ base ∧
    noticeRecord (.laneFull x) = [6, 2, 1, codeLane (some x)] ∧
    noticeRecord (.tinOut h i x k) = [7, 1, 5] ++ name ++ [byte i, codeLane (some x), codeMarks k] ∧
    noticeRecord (.canisterLow p v) = [8, 1, 5, byte p.val] ++ be 4 v ∧
    noticeRecord (.canisterWait p h steps v) = [9, 1, 15, byte p.val] ++ name ++ be 4 steps ++ be 8 v ∧
    noticeRecord (.line mode) = [10, 1, 1, codeLineMode mode] ∧
    noticeRecord (.start d mode) = [11, 1, 2, byte d, codeLineMode mode]) ∧
  [Disposition.mark, .stop].map codeDisposition = [0, 1] ∧ [Shortage.wait, .refuse].map codeShortage = [0, 1] ∧
  [CanState.vacant, .settled, .recirc, .ready, .stirring, .locked].map codeCanState = [0, 1, 2, 3, 4, 5] ∧
  [PumpState.idle, .charging, .burst, .recirc].map codePumpState = [0, 1, 2, 3] ∧
  [JobState.waitingStock, .ready, .active, .suspended, .cancelling, .done, .cancelled].map codeJobState =
    [1, 2, 3, 4, 5, 6, 7] ∧
  [Cause.admitted, .stockWait, .stockGranted, .callExpired, .lotStop, .weighStop, .weighNoneStop, .resumed,
    .returnedWait, .cancelled, .done].map codeCause = [1, 2, 3, 4, 5, 6, 7, 8, 9, 10, 11] ∧
  [none, some Cause.callExpired, some .lotStop, some .weighStop, some .weighNoneStop].map codeSuspension =
    [0, 4, 5, 6, 7] ∧
  [TinOutcome.pending, .inFlight, .delivered, .notMade].map codeOutcome = [0, 1, 2, 3] ∧
  [none, some Lane.la, some .lb, some .lc, some .lx].map codeLane = [0, 1, 2, 3, 4] ∧
  [MixerId.m1, .m2].map codeMixer = [1, 2] ∧ [Port.a, .b, .c, .w].map codePort = [1, 2, 3, 4] ∧
  [LineMode.run, .parking, .parked, .halted].map codeLineMode = [1, 2, 3, 4] ∧
  [GuardState.opened, .closed].map codeGuard = [0, 1] ∧
  [StationState.idle, .calling, .taring, .dispensing, .drip, .weighing, .handoff].map codeStation =
    [0, 1, 2, 3, 4, 5, 6] ∧
  [ChanState.free, .waitRecirc, .waitCharge, .burst, .dwell, .done].map codeChan = [0, 1, 2, 3, 4, 5] ∧
  [Capture.none, .tare, .gross].map codeCapture = [0, 1, 2] ∧
  [MixState.idle, .loading, .mixing, .holding, .out].map codeMixState = [0, 1, 2, 3, 4] ∧
  [LidState.idle, .lidding, .laneWait].map codeLidState = [0, 1, 2] ∧
  [Source.m1, .m2, .station].map codeSource = [1, 2, 3] ∧
  [none, some LabelWord.reject, some .spoiled].map codeWord = [0, 1, 2]

/-! ### Job requests -/

/-- A SUBMIT that passes the checks up to the shortage step (R46, R47, R72) takes the lowest-numbered empty slot (R58).
With enough free volume and empty wait lists it is READY, its needs reserved, at the queue's tail, with JOB-STATE
for its owner, and wakes a PARKING or PARKED line (R149). Otherwise, under WAIT, it holds nothing, joins the tail
of the first short canister's wait list, and CANISTER-WAIT goes to port W; under REFUSE it is refused SHORT with
the figures of R179. With no empty slot it is refused TABLE-FULL. Its body stands as R177 lays it out. The record
written is that of R61, its amounts read and normalised by R2 and R3, its targets by R6, its substep marks by R5 and
R14. The earlier refusals of R71 and R72 come in their order. The field or component named within FORMAT, and that
NO-CLASS names field 4, are the model's choices (log entries 8, 10, 11), and so is that the wake follows the JOB-STATE
(log entry 45). -/
def Obligations.SubmitAdmitsAJobOrMakesItWait : Prop :=
  (∀ (s : State) (p : Port) (tag : Byte) (body : Bytes), p ≠ .w → s.Takes p .submit tag body → SubmitFits s p body →
    ((∀ i, (s.slot i).job ≠ none) → exec (.submit p tag body) s = .next (s.replied p .submit tag [0x07, 0, 0])) ∧
    ∀ i : Fin 24, (∀ k, k < i → (s.slot k).job ≠ none) → (s.slot i).job = none →
      let h : Handle := ⟨i, (s.slot i).gen⟩
      let j := newJob s p (submitBody body)
      let fits := fun c : Component => 0 < j.need c → s.waitList c.pos = [] ∧ j.need c * (s.can c.pos).kept.q ≤ s.freeVol c.pos
      ((∀ c ∈ j.comps, fits c) →
        exec (.submit p tag body) s = .next
          ((((((s.popHold p).putJob h
            { j with state := .ready, comps := j.comps.map fun c : Component => { c with reserved := c.reserved + j.need c } }).joinQueue
              h).notify p (.jobState h .ready .admitted)).wake).select.answered p .submit tag
                [byte i.val, byte h.gen, 2, 0, 0])) ∧
      (∀ pre c post, j.comps = pre ++ c :: post → (∀ x ∈ pre, fits x) → ¬ fits c →
        (u8 body 41 = 0 →
          exec (.submit p tag body) s = .next
            (((((((s.popHold p).putJob h { j with state := .waitingStock }).setWait c.pos (s.waitList c.pos ++ [h])).notify
              .w (.canisterWait c.pos h (j.need c) (j.need c * (s.can c.pos).kept.q))).notify p
                (.jobState h .waitingStock .stockWait)).select).answered p .submit tag
                  [byte i.val, byte h.gen, 1, 1, byte c.pos.val])) ∧
        (u8 body 41 = 1 →
          exec (.submit p tag body) s = .next (s.replied p .submit tag
            ([0x09, 0, 0, byte c.pos.val] ++ be 4 (s.freeVol c.pos) ++ be 8 (j.need c * (s.can c.pos).kept.q) ++
              [flag !(s.waitList c.pos).isEmpty]))))) ∧
  -- the fields of the body
  (∀ (orderRef colour base cls : Text) (vref n sub out non lot short : Nat) (es : List CompEntry),
    orderRef.length = 12 → colour.length = 16 → base.length = 4 → cls.length = 2 → vref < 65536 → n < 256 →
    sub < 256 → out < 256 → non < 256 → lot < 256 → short < 256 → es.length < 256 →
    (∀ e ∈ es, e.code.length = 3 ∧ e.amount.length = 7 ∧ e.scale < 256) →
    submitBody (orderRef ++ colour ++ base ++ cls ++ be 2 vref ++
      [byte n, byte sub, byte out, byte non, byte lot, byte short, byte es.length] ++
      es.flatMap fun e => e.code ++ e.amount ++ [byte e.scale]) =
      { orderRef := orderRef, colour := colour, base := base, cls := cls, vref := vref, n := n, dSubstep := sub
        dWeighOut := out, dWeighNone := non, dLotBreak := lot, shortage := short, comps := es }) ∧
  (∀ (f : Text) (d : Nat), parseAmount f = some d ↔ ∃ (ds : List Nat) (k : Nat), ds ≠ [] ∧ (∀ x ∈ ds, x ≤ 9) ∧
    f = ds.map (fun x => byte (0x30 + x)) ++ List.replicate k 0x20 ∧ d = ds.foldl (fun v x => 10 * v + x) 0) ∧
  -- the record that admission writes, and the need of a component
  (∀ (s : State) (p : Port) (r : SubmitBody) (t : TinClass), s.CodesOk → (s.classes.map fun c => c.code).Nodup →
    t ∈ s.classes → t.code = r.cls → (∀ e ∈ r.comps, ∃ q, (s.can q).kept.installed = true ∧ (s.can q).kept.code = e.code) →
    let choice := fun n : Nat => if n = 0 then Disposition.mark else .stop
    ∃ cs : List Component, newJob s p r =
      { owner := p, orderRef := r.orderRef, colour := r.colour, base := r.base, cls := r.cls, vref := r.vref, n := r.n
        comps := cs, dSubstep := choice r.dSubstep, dWeighOut := choice r.dWeighOut, dWeighNone := choice r.dWeighNone
        dLotBreak := choice r.dLotBreak, shortage := if r.shortage = 0 then .wait else .refuse, state := .waitingStock
        counted := 0, started := 0, delivered := 0, expiries := 0, pendingRe := none, cause := none
        results := (List.range r.n).map fun i =>
          { index := i + 1, outcome := .pending, attempts := 0, steps := none, expected := none, net := none
            marks := none, lane := none } } ∧ cs.length = r.comps.length ∧
      ∀ (i : Nat) (e : CompEntry) (q : Pos) (d : Nat), r.comps[i]? = some e → (s.can q).kept.installed = true →
        (s.can q).kept.code = e.code → parseAmount e.amount = some d →
        let exact := e.micro d * 1000 * t.fill
        cs[i]? = some
          { pos := q, code := e.code, amount := e.amount, scale := e.scale, a := e.micro d, exact := exact
            qSnap := (s.can q).kept.q, cum := 0
            substep := decide ((0 < d ∧ e.micro d = 0) ∨ (0 < exact ∧ exact < (s.can q).kept.q * r.vref))
            lotSnap := (s.can q).kept.lot, reserved := 0, lotBreak := false }) ∧
  (∀ s : State, s.jobs = (List.finRange 24).filterMap fun i =>
    (s.slot i).job.map fun j => ((⟨i, (s.slot i).gen⟩ : Handle), j)) ∧
  (∀ (j : Job) (c : Component),
    j.need c = (2 * j.n * c.exact + c.qSnap * j.vref) / (2 * (c.qSnap * j.vref))) ∧
  -- the refusals up to POOL-FULL, in their order
  ∀ (s : State) (p : Port) (tag : Byte) (body : Bytes), p ≠ .w → s.Takes p .submit tag body →
    let r := submitBody body
    let refused := fun detail : Bytes => exec (.submit p tag body) s = .next (s.replied p .submit tag detail)
    let sized := 1 ≤ u8 body 42 ∧ u8 body 42 ≤ 6 ∧ body.length = 43 + 11 * u8 body 42
    let fitsTo := fun k : Nat => ∀ i e, i < k → r.comps[i]? = some e → e.Fits (r.comps.take i)
    let held := fun e : CompEntry => ∃ q, (s.can q).kept.installed = true ∧ (s.can q).kept.code = e.code
    (43 ≤ body.length → u8 body 42 = 0 ∨ 6 < u8 body 42 → refused [0x02, 12, 0]) ∧
    (body.length < 43 ∨ (1 ≤ u8 body 42 ∧ u8 body 42 ≤ 6 ∧ body.length ≠ 43 + 11 * u8 body 42) →
      refused [0x02, 0, 0]) ∧
    (sized →
      (∀ pre f post, r.fields = pre ++ (f, false) :: post → (∀ x ∈ pre, x.2 = true) → refused [0x02, byte f, 0]) ∧
      ((∀ x ∈ r.fields, x.2 = true) →
        (∀ i e, r.comps[i]? = some e → fitsTo i → ¬ e.Fits (r.comps.take i) → refused [0x02, 0, byte (i + 1)]) ∧
        (fitsTo 6 →
          (r.vref < 250 ∨ 20000 < r.vref → refused [0x03, 5, 0]) ∧
          (250 ≤ r.vref → r.vref ≤ 20000 →
            (r.n = 0 ∨ 99 < r.n → refused [0x03, 6, 0]) ∧
            (1 ≤ r.n → r.n ≤ 99 →
              let large := fun e : CompEntry => ∃ d, parseAmount e.amount = some d ∧ 2000000 < e.micro d
              (∀ i e, r.comps[i]? = some e → large e → (∀ x ∈ r.comps.take i, ¬ large x) →
                refused [0x03, 0, byte (i + 1)]) ∧
              ((∀ e ∈ r.comps, ¬ large e) →
                ((∀ c ∈ s.classes, c.code ≠ r.cls) → refused ([0x0C, 4, 0] ++ r.cls)) ∧
                ∀ pre t post, s.classes = pre ++ t :: post → (∀ c ∈ pre, c.code ≠ r.cls) → t.code = r.cls →
                  (∀ i e, r.comps[i]? = some e → ¬ held e → (∀ x ∈ r.comps.take i, held x) →
                    refused [0x0D, 0, byte (i + 1)]) ∧
                  ((∀ e ∈ r.comps, held e) →
                    let j := newJob s p r
                    let sum := (j.comps.map fun c => c.exact).sum
                    let free := 400 - (s.jobs.map fun x => x.2.n).sum
                    (r.dSubstep = 1 → ∀ (i : Nat) (c : Component), j.comps[i]? = some c → c.substep = true →
                      (∀ x ∈ j.comps.take i, x.substep = false) → refused [0x0B, 0, byte (i + 1)]) ∧
                    (r.dSubstep = 0 ∨ (∀ c ∈ j.comps, c.substep = false) →
                      (t.headroom * 1000000 * r.vref < sum →
                        refused ([0x0A, 0, 0] ++ be 8 ((2 * sum + r.vref) / (2 * r.vref)) ++
                          be 4 (t.headroom * 1000000))) ∧
                      (sum ≤ t.headroom * 1000000 * r.vref →
                        ((∀ i, (s.slot i).job ≠ none) → refused [0x07, 0, 0]) ∧
                        ((∃ i, (s.slot i).job = none) → free < r.n → refused ([0x08, 0, 0] ++ be 2 free)))))))))))

/-- CANCEL of a job with no tin at the station, or with one that is decided there: on route REJECT or in HANDOFF (R74, R75,
R55): its PENDING entries become NOT-MADE; it leaves the queue, a standing call (R92) and its wait list; every reserved
step and its pending re-reservation are released; it is CANCELLED, or CANCELLING while a tin of it is on the line; its
owner gets JOB-STATE. Walks run, in component order, on each canister whose reserved steps fell and on the one whose
list it left (R49), and a selection ends the event (R85). In CANCELLING, DONE and CANCELLED it is refused STATE; a
handle that is none, or names no job or another port's, is refused as R59 and R60 say (RANGE names it: the model's
choice, log entry 47). That the park condition is examined after JOB-STATE and before the walks is the model's choice (log entry 18). -/
def Obligations.CancelReleasesAJob : Prop :=
  (∀ (s : State) (p : Port) (tag : Byte), p ≠ .w → s.ChecksHandle p .cancel tag (Instr.cancel p tag)) ∧
  (∀ (s : State) (h : Handle), (s.called h = true ↔ ∃ c, s.call = some c ∧ c.handle = h) ∧
    s.tinCount h = (([s.tin, s.m1.tin, s.m2.tin, s.lidder.tin].filterMap id).filter fun t : TinCtx => t.handle == h).length) ∧
  ∀ (s : State) (p : Port) (tag : Byte) (h : Handle) (j : Job), p ≠ .w → s.job? h = some j → j.owner = p →
    1 ≤ h.gen → h.gen ≤ 255 → s.Takes p .cancel tag [byte h.slot.val, byte h.gen] →
    (j.state ∈ [JobState.cancelling, .done, .cancelled] →
      exec (.cancel p tag [byte h.slot.val, byte h.gen]) s = .next (s.replied p .cancel tag [0x06, 0, 0])) ∧
    (j.state ∉ [JobState.cancelling, .done, .cancelled] →
      (∀ t, s.tin = some t → t.handle ≠ h ∨
        ((t.route = .reject ∨ s.station = .handoff) ∧ ∀ d, (s.chan d).state ≠ .burst)) →
      (∀ q r, h ∈ s.waitList q → h ∈ s.waitList r → q = r) →
      let st := if s.tinCount h = 0 then JobState.cancelled else .cancelling
      let u : State := (s.popHold p).putJob h
        { j with
          state := st, cause := none, pendingRe := none
          results := j.results.map fun e : TinResult => if e.outcome = .pending then { e with outcome := .notMade } else e
          comps := j.comps.map fun c : Component => { c with reserved := 0 } }
      let v : State := { u with
        queue := s.queue.filter (· != h), quota := if s.queue.head? = some h then 0 else s.quota
        waits := mapVec (fun l : List Handle => l.filter (· != h)) s.waits }
      let w : State := if s.called h = true then { v with call := none, callTimer := none, station := .idle } else v
      exec (.cancel p tag [byte h.slot.val, byte h.gen]) s = .next
        (((((w.notify p (.jobState h st .cancelled)).examinePark).walkAll
          ((j.comps.filter fun c : Component => decide (0 < c.reserved) || (s.waitList c.pos).contains h).map fun c : Component => c.pos)).selectAfter
            (s.popHold p)).answered p .cancel tag
            [codeJobState st, byte (j.results.filter fun e : TinResult => e.outcome == .pending).length, byte (s.tinCount h)]))

/-- CANCEL of a job whose undecided tin stands at the station (R75, R113): tins started falls by 1, the tin takes route
and word REJECT, captures stop, and the job is CANCELLING. From TARING, DRIP or WEIGHING the gate shuts; from these and
from DISPENSING with no burst in progress, where the channels become FREE, the tin goes to HANDOFF as the last claimant
(R112, R137), and the lidder, if IDLE, takes its head claimant at once (R138). From DISPENSING with a burst in progress,
the other channels become DONE with their dwell timers stopped, each burst runs on, and its step count stays reserved
until its report (R55). That the park condition is examined after JOB-STATE is the model's choice (log entry 18). -/
def Obligations.CancelTurnsTheStationTin : Prop :=
  ∀ (s : State) (p : Port) (tag : Byte) (j : Job) (t : TinCtx), p ≠ .w → s.tin = some t → s.job? t.handle = some j →
    j.owner = p → j.state ∉ [JobState.cancelling, .done, .cancelled] → 1 ≤ t.handle.gen → t.handle.gen ≤ 255 →
    s.Takes p .cancel tag [byte t.handle.slot.val, byte t.handle.gen] → t.route = .normal → s.call = none →
    (∀ q, t.handle ∉ s.waitList q) →
    let h := t.handle
    let i := Instr.cancel p tag [byte h.slot.val, byte h.gen]
    let n := (j.results.filter fun e : TinResult => e.outcome == .pending).length
    let gone : Job := { j with
      state := .cancelling, cause := none, pendingRe := none, started := j.started - 1
      results := j.results.map fun e : TinResult => if e.outcome = .pending then { e with outcome := .notMade } else e }
    let u : State := { s.popHold p with
      queue := s.queue.filter (· != h), quota := if s.queue.head? = some h then 0 else s.quota
      capture := .none, scaleTimer := none }
    let turned : TinCtx := { t with route := .reject, word := some .reject, stop := .cancel }
    let leaves : State → State := fun v =>
      ((((({ v with
        station := .handoff, tin := some { turned with stage := .lidWait }
        lidder := { s.lidder with claims := s.lidder.claims ++ [Source.station] } }.putJob h
          { gone with comps := j.comps.map fun c : Component => { c with reserved := 0 } }).examineLidder.notify p
            (.jobState h .cancelling .cancelled)).examinePark).walkAll
              ((j.comps.filter fun c : Component => decide (0 < c.reserved)).map fun c : Component => c.pos)).selectAfter
                (s.popHold p)).answered p .cancel tag [5, byte n, byte (s.tinCount h)]
    let burst := fun i : Nat => match allChans.find? fun d => (s.chan d).state == .burst && (s.chan d).comp == i with
      | some d => (s.chan d).burst.getD 0
      | none => 0
    ((∀ d, (s.chan d).state ≠ .burst) → Source.station ∉ s.lidder.claims →
      (s.lidder.state = .idle → s.lidder.tin = none) →
      (s.station ∈ [StationState.taring, .drip, .weighing] →
        exec i s = .next (leaves { u with gateOpen := false, dripTimer := none })) ∧
      (s.station = .dispensing → exec i s = .next (leaves { u with channels := Vector.replicate 4 Channel.free }))) ∧
    (s.station = .dispensing → (∃ d, (s.chan d).state = .burst) →
      exec i s = .next (((((({ u with
        tin := some turned
        channels := mapVec (fun c : Channel =>
          if c.state ∈ [ChanState.waitRecirc, .waitCharge, .dwell] then { c with state := .done, dwellTimer := none }
          else c) s.channels }.putJob h
          { gone with comps := j.comps.mapIdx fun (i : Nat) (c : Component) => { c with reserved := min c.reserved (burst i) } }).notify p
            (.jobState h .cancelling .cancelled)).examinePark).walkAll
              ((j.comps.zipIdx.filter fun x : Component × Nat => decide (burst x.2 < x.1.reserved)).map fun x : Component × Nat => x.1.pos)).selectAfter
                (s.popHold p)).answered p .cancel tag [5, byte n, byte (s.tinCount h)]))

/-- RESUME of a SUSPENDED job (R77, R54): the expiry count returns to 0 and the cause is cleared; after LOT-STOP the
differing snapshots are rewritten and marked; after a weigh stop the pending steps are reserved again if every
canister has the volume. The job is ACTIVE while it has a call or a tin on the line and READY otherwise (R66),
and a READY job wakes the line (R149). If a canister is short, it becomes WAITING-STOCK at the head of the first
short one's list and leaves the queue, with CANISTER-WAIT for port W. Its owner gets JOB-STATE with cause
RESUMED. A job that is not SUSPENDED is refused STATE, and a handle as R59 and R60 say (RANGE names it: log entry 47).
The state the answer shows is that before the event's selection
(the model's choice, log entry 38), the park condition is examined after CANISTER-WAIT and before JOB-STATE (log
entry 42), and the line is woken after JOB-STATE (log entry 45). -/
def Obligations.ResumeReturnsASuspendedJob : Prop :=
  (∀ (s : State) (p : Port) (tag : Byte), p ≠ .w → s.ChecksHandle p .resume tag (Instr.resume p tag)) ∧
  ∀ (s : State) (p : Port) (tag : Byte) (h : Handle) (j : Job), p ≠ .w → s.job? h = some j → j.owner = p →
    1 ≤ h.gen → h.gen ≤ 255 → s.Takes p .resume tag [byte h.slot.val, byte h.gen] →
    let i := Instr.resume p tag [byte h.slot.val, byte h.gen]
    let live := if s.called h = true ∨ 0 < s.tinCount h then JobState.active else .ready
    let k : Job := { j with expiries := 0, cause := none, state := live }
    let back : Job → State := fun k =>
      (((((s.popHold p).putJob h k).notify p (.jobState h live .resumed)).wakeIf (live == .ready)).selectAfter
        (s.popHold p)).answered p .resume tag [codeJobState live, 0, 0]
    let short := fun x : Nat × Component => 0 < x.1 ∧ s.freeVol x.2.pos < x.1 * (s.can x.2.pos).kept.q
    (j.state ≠ .suspended → exec i s = .next (s.replied p .resume tag [0x06, 0, 0])) ∧
    (j.state = .suspended →
      (j.cause = some .callExpired → exec i s = .next (back k)) ∧
      (j.cause = some .lotStop → exec i s = .next (back { k with
        comps := j.comps.map fun c : Component =>
          if c.lotSnap ≠ (s.can c.pos).kept.lot then { c with lotSnap := (s.can c.pos).kept.lot, lotBreak := true }
          else c })) ∧
      (j.cause = some .weighStop ∨ j.cause = some .weighNoneStop →
        (j.pendingRe = none → exec i s = .next (back k)) ∧
        (∀ l, j.pendingRe = some l → l.length = j.comps.length → (∀ x ∈ l.zip j.comps, ¬ short x) →
          exec i s = .next (back { k with
            pendingRe := none, comps := l.zipWith (fun (n : Nat) (c : Component) => { c with reserved := c.reserved + n }) j.comps })) ∧
        (∀ l pre n c post, j.pendingRe = some l → l.zip j.comps = pre ++ (n, c) :: post → (∀ x ∈ pre, ¬ short x) →
          short (n, c) →
          exec i s = .next ((((((({ s.popHold p with
            queue := s.queue.filter (· != h), quota := if s.queue.head? = some h then 0 else s.quota }.putJob h
              { k with state := .waitingStock }).setWait c.pos (h :: s.waitList c.pos)).notify .w
                (.canisterWait c.pos h n (n * (s.can c.pos).kept.q))).examinePark).notify p
                  (.jobState h .waitingStock .resumed)).selectAfter (s.popHold p)).answered p .resume tag
                    [1, 1, byte c.pos.val]))))

/-- RETIRE of a DONE or CANCELLED job frees its slot, whose generation advances, 1 following 255 (R58, R78); any other
job is refused STATE, and a handle as R59 and R60 say (RANGE names it: the model's choice, log entry 47). CLEAR-PORT,
its body empty or else refused FORMAT, empties the port's notice queue, clears its lost mark, drops its attention line,
and frees every slot whose job the port owns in a final state; its answer counts both and lists the handles
freed (R170). -/
def Obligations.RetireAndClearPortFreeSlots : Prop :=
  ∀ (s : State) (p : Port) (tag : Byte),
    (p ≠ .w → s.ChecksHandle p .retire tag (Instr.retire p tag)) ∧
    (∀ body, s.Takes p .clearPort tag body → body ≠ [] →
      exec (.clearPort p tag body) s = .next (s.replied p .clearPort tag [0x02, 0, 0])) ∧
    (∀ (h : Handle) (j : Job), p ≠ .w → s.job? h = some j → j.owner = p → 1 ≤ h.gen → h.gen ≤ 255 →
      s.Takes p .retire tag [byte h.slot.val, byte h.gen] →
      (j.state ≠ .done → j.state ≠ .cancelled →
        exec (.retire p tag [byte h.slot.val, byte h.gen]) s = .next (s.replied p .retire tag [0x06, 0, 0])) ∧
      (j.state = .done ∨ j.state = .cancelled →
        exec (.retire p tag [byte h.slot.val, byte h.gen]) s = .next
          (((s.popHold p).setSlot h.slot { gen := if h.gen = 255 then 1 else h.gen + 1, job := none }).answered p
            .retire tag [byte h.slot.val, byte h.gen]))) ∧
    (s.Takes p .clearPort tag [] → s.GensOk →
      let final := fun i : Fin 24 => ∃ j, (s.slot i).job = some j ∧ j.owner = p ∧ (j.state = .done ∨ j.state = .cancelled)
      ∃ (t : State) (l : List (Fin 24)), exec (.clearPort p tag []) s = .next (t.answered p .clearPort tag
          ([byte (s.port p).notices.length, byte l.length] ++ (l.flatMap fun i : Fin 24 => [byte i.val, byte (s.slot i).gen]) ++
            List.replicate (2 * (24 - l.length)) 0)) ∧
        l.Pairwise (· < ·) ∧ (∀ i, i ∈ l ↔ final i) ∧
        t = { s.popHold p with ports := t.ports, slots := t.slots } ∧
        (∀ q, t.port q = if q = p then { (s.popHold p).port p with notices := [], lost := false, attention := false }
          else s.port q) ∧
        (∀ i, (final i → t.slot i = { gen := if (s.slot i).gen = 255 then 1 else (s.slot i).gen + 1, job := none }) ∧
          (¬ final i → t.slot i = s.slot i)))

/-! ### Class, line and query requests -/

/-- SET-TIN-CLASS (R82). SET of a class with a printable, non-blank code and values in range adds it, or replaces the
three values of the class that bears its code; DELETE removes it; the stored copy follows (R155). A class that a
job not DONE or CANCELLED names is refused COVERED, the deletion of a class not held NO-CLASS with the code, and an
addition to 12 classes TABLE-FULL. Before that it is refused FORMAT for another operation, a body length that does not
suit the operation, or a code that is not printable or two spaces, and SET then RANGE naming the first field at fault
(R81). That an undefined operation precedes the length, and this the code, are the model's choices (log entry 43), and
that a code of spaces is named (log entry 9). -/
def Obligations.TinClassesAreSetAndDeleted : Prop :=
  (∀ (s : State) (tag : Byte) (body : Bytes), s.Takes .w .setTinClass tag body →
    let code := (body.drop 1).take 2
    let set := fun detail : Bytes =>
      exec (.setTinClassSet .w tag body) s = .next (s.replied .w .setTinClass tag detail)
    let delete := fun detail : Bytes =>
      exec (.setTinClassDelete .w tag body) s = .next (s.replied .w .setTinClass tag detail)
    (body = [] → set [0x02, 0, 0]) ∧ (1 < u8 body 0 → set [0x02, 1, 0]) ∧
    (body.head? = some 0 → (body.length ≠ 9 → set [0x02, 0, 0]) ∧
      (body.length = 9 → (printable code = false ∨ blankText code = true → set [0x02, 2, 0]) ∧
        (printable code = true → blankText code = false →
          (uN body 3 2 < 250 ∨ 20000 < uN body 3 2 → set [0x03, 3, 0]) ∧
          (250 ≤ uN body 3 2 → uN body 3 2 ≤ 20000 →
            (uN body 5 2 < 5 ∨ 800 < uN body 5 2 → set [0x03, 4, 0]) ∧
            (5 ≤ uN body 5 2 → uN body 5 2 ≤ 800 → uN body 7 2 < 30 ∨ 600 < uN body 7 2 → set [0x03, 5, 0]))))) ∧
    (body.head? = some 1 → (body.length ≠ 3 → delete [0x02, 0, 0]) ∧
      (body.length = 3 → printable code = false ∨ blankText code = true → delete [0x02, 2, 0]))) ∧
  ∀ (s : State) (tag : Byte) (code : Text) (fill head mix : Nat), code.length = 2 → printable code = true →
    blankText code = false →
    let held := ∃ c ∈ s.classes, c.code = code
    let named := ∃ i j, (s.slot i).job = some j ∧ j.state ≠ .done ∧ j.state ≠ .cancelled ∧ j.cls = code
    (let body : Bytes := (0 : Byte) :: (code ++ be 2 fill ++ be 2 head ++ be 2 mix)
     let c : TinClass := { code := code, fill := fill, headroom := head, mixTime := mix }
     let stored : Store := { s.store with
       classes := if ∃ x ∈ s.store.classes, x.data.code = code then
           s.store.classes.map fun x => if x.data.code = code then ⟨c, true⟩ else x
         else s.store.classes ++ [⟨c, true⟩] }
     s.Takes .w .setTinClass tag body → 250 ≤ fill → fill ≤ 20000 → 5 ≤ head → head ≤ 800 → 30 ≤ mix → mix ≤ 600 →
      (held → named → exec (.setTinClassSet .w tag body) s = .next (s.replied .w .setTinClass tag [0x10, 0, 0])) ∧
      (held → ¬ named →
        exec (.setTinClassSet .w tag body) s = .next
          ({ s.popHold .w with
            classes := s.classes.map fun x : TinClass => if x.code = code then c else x
            store := stored }.answered .w .setTinClass tag (code ++ [2, byte s.classes.length]))) ∧
      (¬ held → 12 ≤ s.classes.length →
        exec (.setTinClassSet .w tag body) s = .next (s.replied .w .setTinClass tag [0x07, 0, 0])) ∧
      (¬ held → s.classes.length < 12 →
        exec (.setTinClassSet .w tag body) s = .next
          ({ s.popHold .w with classes := s.classes ++ [c], store := stored }.answered .w .setTinClass tag
            (code ++ [1, byte (s.classes.length + 1)])))) ∧
    (s.Takes .w .setTinClass tag (1 :: code) →
      (¬ held → exec (.setTinClassDelete .w tag (1 :: code)) s =
        .next (s.replied .w .setTinClass tag ([0x0C, 0, 0] ++ code))) ∧
      (held → named → exec (.setTinClassDelete .w tag (1 :: code)) s =
        .next (s.replied .w .setTinClass tag [0x10, 0, 0])) ∧
      (held → ¬ named → exec (.setTinClassDelete .w tag (1 :: code)) s = .next
        (let l : List TinClass := s.classes.filter fun x : TinClass => x.code != code
         { s.popHold .w with
           classes := l, store := { s.store with classes := s.store.classes.filter fun x => x.data.code != code } }.answered
           .w .setTinClass tag (code ++ [3, byte l.length]))))

/-- SET-LINE clamps each of its six values to its range and puts them in force, in every line mode; the record is
stored when a value has changed; and a raised tin quota is followed by a selection (R153, R85). A body of another length
is refused FORMAT. -/
def Obligations.SetLineClampsTheSettings : Prop :=
  (∀ (s : State) (tag : Byte) (body : Bytes), s.Takes .w .setLine tag body → body.length ≠ 10 →
    exec (.setLine .w tag body) s = .next (s.replied .w .setLine tag [0x02, 0, 0])) ∧
  ∀ (s : State) (tag : Byte) (call quota settle floor absTol relTol : Nat),
    call < 65536 → quota < 256 → settle < 65536 → floor < 65536 → absTol < 65536 → relTol < 256 →
    let body : Bytes := be 2 call ++ [byte quota] ++ be 2 settle ++ be 2 floor ++ be 2 absTol ++ [byte relTol]
    s.Takes .w .setLine tag body →
    let v : Settings :=
      { callTimeout := max 10 (min call 600), quota := max 1 (min quota 20), scaleSettle := max 1000 (min settle 10000)
        weighFloor := min floor 10000, absTol := min absTol 5000, relTol := min relTol 100 }
    let t : State := { s.popHold .w with
      line := { s.line with settings := v }
      store := if v = s.line.settings then s.store else { s.store with settings := some ⟨v, true⟩ } }
    exec (.setLine .w tag body) s = .next
      ((if s.line.settings.quota < v.quota then t.select else t).answered .w .setLine tag
        (be 2 v.callTimeout ++ [byte v.quota] ++ be 2 v.scaleSettle ++ be 2 v.weighFloor ++ be 2 v.absTol ++
          [byte v.relTol]))

/-- LINE-MODE (R147). PARK in RUN makes the line PARKED when the park condition of R148 holds and PARKING otherwise;
WAKE in PARKING or PARKED makes it RUN; each change puts LINE on every port, and other modes but HALTED are kept.
The answer carries the mode, the one before the selection of its event (the model's choice, log entry 25). In HALTED
both are refused STATE; a body of another length, or one that names neither, is refused FORMAT, the length examined first
(the model's choice, log entry 43). Where an event examines the park condition (R148), a line in PARKING with no call, no
tin on the line and every queued job SUSPENDED becomes PARKED, with LINE on every port; otherwise nothing changes. -/
def Obligations.ParkAndWakeChangeTheMode : Prop :=
  ∀ (s : State) (p : Port) (tag : Byte),
    let idle := s.call = none ∧ s.tins = [] ∧ ∀ h ∈ s.queue, ∀ j, s.job? h = some j → j.state = .suspended
    let go : LineMode → State := fun m => ({ s.popHold p with line := { s.line with mode := m, guard := none } }).notifyAll (.line m)
    (s.tins = [] ↔ s.tin = none ∧ s.m1.tin = none ∧ s.m2.tin = none ∧ s.lidder.tin = none) ∧
    (s.line.mode = .parking → idle →
      s.examinePark = ({ s with line := { s.line with mode := .parked, guard := none } }).notifyAll (.line .parked)) ∧
    (s.line.mode ≠ .parking ∨ ¬ idle → s.examinePark = s) ∧
    (∀ body, s.Takes p .lineMode tag body →
      (body.length ≠ 1 →
        (body.head? ≠ some 1 → exec (.lineModePark p tag body) s = .next (s.replied p .lineMode tag [0x02, 0, 0])) ∧
        (body.head? = some 1 → exec (.lineModeWake p tag body) s = .next (s.replied p .lineMode tag [0x02, 0, 0]))) ∧
      (body.length = 1 → 1 < u8 body 0 →
        exec (.lineModePark p tag body) s = .next (s.replied p .lineMode tag [0x02, 1, 0]))) ∧
    (s.Takes p .lineMode tag [0] →
      (s.line.mode = .run → idle →
        exec (.lineModePark p tag [0]) s = .next ((go .parked).select.answered p .lineMode tag [3])) ∧
      (s.line.mode = .run → ¬ idle →
        exec (.lineModePark p tag [0]) s = .next ((go .parking).select.answered p .lineMode tag [2])) ∧
      (s.line.mode = .parking ∨ s.line.mode = .parked →
        exec (.lineModePark p tag [0]) s = .next
          ((s.popHold p).select.answered p .lineMode tag [codeLineMode s.line.mode])) ∧
      (s.line.mode = .halted → exec (.lineModePark p tag [0]) s = .next (s.replied p .lineMode tag [0x06, 0, 0]))) ∧
    (s.Takes p .lineMode tag [1] →
      (s.line.mode = .parking ∨ s.line.mode = .parked →
        exec (.lineModeWake p tag [1]) s = .next ((go .run).select.answered p .lineMode tag [1])) ∧
      (s.line.mode = .run →
        exec (.lineModeWake p tag [1]) s = .next ((s.popHold p).select.answered p .lineMode tag [1])) ∧
      (s.line.mode = .halted → exec (.lineModeWake p tag [1]) s = .next (s.replied p .lineMode tag [0x06, 0, 0])))

/-- RESUME-LINE (R152). In HALTED with the guard closed the line becomes RUN with LINE on every port; canisters with a
demand are examined (R25, R29), a tin in TARING is tared afresh (R116, R120), MIXING mixers start their mix timers
from full (R135), the transfer conditions are examined, the lidder takes up its work (R141), and a selection
follows. That the blocks act in this order, and the selection last, is the model's choice (log entry 20). In HALTED with
the guard open it is refused STATE; in any other mode the line keeps its mode. A body that is not empty is refused FORMAT.
The lidder's work (R141): in LIDDING with no command outstanding LID-START goes out again with the kept label and the
command is outstanding; in LANE-WAIT the tin is placed if its lane has room; IDLE, it examines its claims. -/
def Obligations.ResumeLineLeavesHalted : Prop :=
  (∀ (s : State) (p : Port) (tag : Byte) (body : Bytes), s.Takes p .resumeLine tag body → body ≠ [] →
    exec (.resumeLine p tag body) s = .next (s.replied p .resumeLine tag [0x02, 0, 0])) ∧
  (∀ s : State,
    (s.lidder.state = .lidding →
      (∀ l, s.lidder.label = some l → s.lidder.cmdOut = false → s.relid = { s with
        lidder := { s.lidder with cmdOut := true }, sent := s.sent ++ [Sent.lidStart l] }) ∧
      (s.lidder.label = none ∨ s.lidder.cmdOut = true → s.relid = s)) ∧
    (s.lidder.state = .laneWait → s.relid = s.examineLane) ∧
    (s.lidder.state = .idle → s.relid = s.examineLidder)) ∧
  ∀ (s : State) (p : Port) (tag : Byte), s.Takes p .resumeLine tag [] →
    (s.line.mode ≠ .halted →
      exec (.resumeLine p tag []) s = .next (s.replied p .resumeLine tag [0, 0, 0, codeLineMode s.line.mode])) ∧
    (s.line.mode = .halted → s.line.guard ≠ some .closed →
      exec (.resumeLine p tag []) s = .next (s.replied p .resumeLine tag [0x06, 0, 0])) ∧
    (s.line.mode = .halted → s.line.guard = some .closed →
      let full := fun m : Mixer =>
        match m.state, m.tin with
        | .mixing, some t => { m with timer := some (s.mixMs t.handle) }
        | _, _ => m
      let a : State := allPos.foldl State.examineRecirc
        (({ s.popHold p with line := { s.line with mode := .run, guard := none } }).notifyAll (.line .run))
      let b : State := { a with
        m1 := full s.m1, m2 := full s.m2
        capture := if s.station = .taring then .tare else s.capture
        scaleTimer := if s.station = .taring then some s.line.settings.scaleSettle else s.scaleTimer }
      exec (.resumeLine p tag []) s = .next (b.examineTransfer.relid.select.answered p .resumeLine tag [1]))

/-- MIXER-RETURN of an OUT mixer (R134): with no tin it becomes IDLE and the station examines its transfer conditions;
with a tin it mixes it again, its timer from full, or stopped while the line is HALTED. A mixer in any other state
is refused STATE. That the answer for an empty mixer carries IDLE, also where TRANSFER is sent to it in this event, is
the model's choice (log entry 41). A body of another length, or one that names no mixer, is refused FORMAT, the length
examined first (the model's choice, log entry 43). -/
def Obligations.MixerReturnRestoresAMixer : Prop :=
  (∀ (s : State) (p : Port) (tag : Byte) (body : Bytes), s.Takes p .mixerReturn tag body →
    (body.length ≠ 1 → exec (.mixerReturn p tag body) s = .next (s.replied p .mixerReturn tag [0x02, 0, 0])) ∧
    (body.length = 1 → u8 body 0 ≠ 1 → u8 body 0 ≠ 2 →
      exec (.mixerReturn p tag body) s = .next (s.replied p .mixerReturn tag [0x02, 1, 0]))) ∧
  ∀ (s : State) (p : Port) (tag : Byte) (m : MixerId), s.Takes p .mixerReturn tag [codeMixer m] →
    ((s.mixer m).state ≠ .out →
      exec (.mixerReturn p tag [codeMixer m]) s = .next (s.replied p .mixerReturn tag [0x06, 0, 0])) ∧
    ((s.mixer m).state = .out → (s.mixer m).tin = none →
      exec (.mixerReturn p tag [codeMixer m]) s = .next
        (((s.popHold p).setMixer m { state := .idle, tin := none, expected := none, timer := none }).examineTransfer.answered
          p .mixerReturn tag [codeMixer m, 0])) ∧
    (∀ t, (s.mixer m).state = .out → (s.mixer m).tin = some t →
      exec (.mixerReturn p tag [codeMixer m]) s = .next
        (((s.popHold p).setMixer m
          { state := .mixing, tin := some { t with stage := .mixing }, expected := none
            timer := if s.line.mode = .halted then none else some (s.mixMs t.handle) }).answered p .mixerReturn tag
          [codeMixer m, 2]))

/-- FIND (R171, R172) examines the visible entries of its table from the start index, upward or downward: installed
positions, or occupied slots, for a counter port those of its own jobs. The first that meets the condition is the
match, given with the number of entries examined; with none, the answer gives the number of visible entries and the
last of them. Nothing changes. The body's fields stand as R178 lays them out, each field of an entry gives the value
R171 names, and EQ, NE, LT and GE compare it (R171, R187). A body of another length, an undefined table, field, condition
or direction, a field of the other table, LT or GE on no number, or a value that does not suit the field is refused
FORMAT, a start index outside the table RANGE. That each is named, and in which order, is the model's choice (log
entries 12, 43 and 47). -/
def Obligations.FindScansTheVisibleEntries : Prop :=
  (∀ (s : State) (p : Port) (tag : Byte) (body : Bytes), s.Takes p .find tag body →
    let r := findBody body
    let refused := fun detail : Bytes => exec (.find p tag body) s = .next (s.replied p .find tag detail)
    let ofTable := (r.table = 0 ∧ r.field ≤ 5) ∨ (r.table = 1 ∧ 6 ≤ r.field ∧ r.field ≤ 9)
    let suits := r.cond ≤ 1 ∨ (r.cond ≤ 3 ∧ fieldKind r.field = .number)
    (body.length ≠ 17 → refused [0x02, 0, 0]) ∧
    (body.length = 17 → (1 < r.table → refused [0x02, 1, 0]) ∧
      (r.table ≤ 1 → (¬ ofTable → refused [0x02, 2, 0]) ∧
        (ofTable → (¬ suits → refused [0x02, 3, 0]) ∧
          (suits → (valueFits (fieldKind r.field) r.value = false → refused [0x02, 4, 0]) ∧
            (valueFits (fieldKind r.field) r.value = true → (1 < r.dir → refused [0x02, 6, 0]) ∧
              (r.dir ≤ 1 → (r.table = 0 ∧ 15 < r.start) ∨ (r.table = 1 ∧ 23 < r.start) →
                refused [0x03, 5, 0]))))))) ∧
  (∀ (s : State) (p : Port) (tag : Byte) (body : Bytes), s.Takes p .find tag body → body.length = 17 →
    let r := findBody body
    (r.cond ≤ 1 ∨ (r.cond ≤ 3 ∧ fieldKind r.field = .number)) → valueFits (fieldKind r.field) r.value = true →
    r.dir ≤ 1 →
    (r.table = 0 → r.field ≤ 5 → r.start ≤ 15 →
      let way := if r.dir = 0 then allPos.filter (fun q => r.start ≤ q.val) else (allPos.filter fun q => q.val ≤ r.start).reverse
      let seen := way.filter fun q => (s.can q).kept.installed
      exec (.find p tag body) s = .next (s.replied p .find tag ([0, 0, 0] ++
        match seen.find? fun q => meets r.cond (canisterValue s r.field q) r.value with
        | some q => [1, byte q.val,
            byte ((seen.findIdx fun q => meets r.cond (canisterValue s r.field q) r.value) + 1)] ++ canisterSummary s q
        | none => [0, byte seen.length] ++ match seen.getLast? with
          | some q => [1, byte q.val]
          | none => [0, 0]))) ∧
    (r.table = 1 → 6 ≤ r.field → r.field ≤ 9 → r.start ≤ 23 →
      let way := if r.dir = 0 then allSlots.filter (fun i => r.start ≤ i.val) else (allSlots.filter fun i => i.val ≤ r.start).reverse
      let seen := way.filterMap fun i => match (s.slot i).job with
        | some j => if p = .w ∨ j.owner = p then some (i, (⟨i, (s.slot i).gen⟩ : Handle), j) else none
        | none => none
      exec (.find p tag body) s = .next (s.replied p .find tag ([0, 0, 0] ++
        match seen.find? fun x => meets r.cond (jobValue s r.field x.2.1 x.2.2) r.value with
        | some x => [1, byte x.1.val,
            byte ((seen.findIdx fun x => meets r.cond (jobValue s r.field x.2.1 x.2.2) r.value) + 1)] ++ jobSummary s x.2.1 x.2.2
        | none => [0, byte seen.length] ++ match seen.getLast? with
          | some x => [1, byte x.1.val]
          | none => [0, 0])))) ∧
  (∀ b : Bytes, findBody b =
    { table := u8 b 0, field := u8 b 1, cond := u8 b 2, start := u8 b 15, dir := u8 b 16
      value := match fieldKind (u8 b 1) with
        | .number => .number (uN b 3 4)
        | .text n => .text ((b.drop 3).take n)
        | .code _ _ => .code (b.getD 3 0) }) ∧
  [0, 1, 2, 3, 4, 5, 6, 7, 8, 9].map fieldKind =
    [.number, .number, .number, .text 3, .text 8, .code 1 5, .text 12, .code 1 7, .code 1 3, .number] ∧
  (∀ (t : Text) (n : Nat), valueFits (.text n) (.text t) = true ↔ ∀ c ∈ t, 0x20 ≤ c.toNat ∧ c.toNat ≤ 0x7E) ∧
  (∀ (c : Byte) (lo hi : Nat), valueFits (.code lo hi) (.code c) = true ↔ lo ≤ c.toNat ∧ c.toNat ≤ hi) ∧
  (∀ x : FindValue, valueFits .number x = true) ∧
  (∀ (s : State) (q : Pos), let k := (s.can q).kept
    canisterValue s 0 q = .number k.level ∧ canisterValue s 1 q = .number (k.level - k.heel) ∧
    canisterValue s 2 q = .number (k.level - k.heel - s.reservedSteps q * k.q) ∧
    canisterValue s 3 q = .text k.code ∧ canisterValue s 4 q = .text k.lot ∧
    canisterValue s 5 q = .code (codeCanState (s.can q).state)) ∧
  (∀ (s : State) (h : Handle) (j : Job),
    let left := j.n - j.started - (if ∃ c, s.call = some c ∧ c.handle = h then 1 else 0)
    jobValue s 6 h j = .text j.orderRef ∧ jobValue s 7 h j = .code (codeJobState j.state) ∧
    jobValue s 8 h j = .code (codePort j.owner) ∧
    jobValue s 9 h j = .number (if j.state ∈ [JobState.cancelling, .done, .cancelled] then 0 else left)) ∧
  ∀ x y : FindValue, (meets 0 x y = true ↔ x = y) ∧ (meets 1 x y = true ↔ x ≠ y) ∧
    (meets 2 x y = true ↔ ∃ m n, x = .number m ∧ y = .number n ∧ m < n) ∧
    (meets 3 x y = true ↔ ∃ m n, x = .number m ∧ y = .number n ∧ n ≤ m)

/-! ### Notices -/

/-- FETCH-NOTICE removes and answers the highest-ranked notice, the oldest of the highest level held, with the lost
flag and the count left, clears the lost mark, and drops the attention line with the last notice (R166, R168, R169).
A notice that arrives joins the queue while fewer than 16 are held and asserts the attention line (R166, R168); at
a full queue the oldest notice of the lowest level gives way to a higher one, and otherwise the new one is dropped,
and the lost mark is set (R167). A notice for several ports is queued on the queue of each, one for all on A, B, C and W
(R165). A FETCH-NOTICE whose body is not empty is refused FORMAT. -/
def Obligations.NoticeQueuesRankAndOverflow : Prop :=
  ∀ (s : State) (p : Port) (tag : Byte),
    (∀ body, s.Takes p .fetchNotice tag body → body ≠ [] →
      exec (.fetchNotice p tag body) s = .next (s.replied p .fetchNotice tag [0x02, 0, 0])) ∧
    (∀ n, s.notifyEach [] n = s ∧ (∀ l, s.notifyEach (p :: l) n = (s.notify p n).notifyEach l n) ∧
      s.notifyAll n = s.notifyEach [.a, .b, .c, .w] n ∧ (s.notifyAll n).port p = (s.notify p n).port p ∧
      s.notifyAll n = { s with ports := (s.notifyAll n).ports }) ∧
    (s.Takes p .fetchNotice tag [] → (s.port p).notices = [] →
      exec (.fetchNotice p tag []) s = .next
        (((s.popHold p).setPort p { (s.popHold p).port p with notices := [], lost := false, attention := false }).answered
          p .fetchNotice tag [0, flag (s.port p).lost, 0])) ∧
    (∀ l n r, s.Takes p .fetchNotice tag [] → (s.port p).notices = l ++ n :: r → (∀ x ∈ l, x.level < n.level) →
      (∀ x ∈ r, x.level ≤ n.level) →
      exec (.fetchNotice p tag []) s = .next
        (((s.popHold p).setPort p
          { (s.popHold p).port p with notices := l ++ r, lost := false, attention := !(l ++ r).isEmpty }).answered p
            .fetchNotice tag ([1, flag (s.port p).lost, byte (l ++ r).length] ++ noticeRecord n))) ∧
    (∀ n, (s.port p).notices.length < 16 →
      s.notify p n = s.setPort p { s.port p with notices := (s.port p).notices ++ [n], attention := true }) ∧
    (∀ l x r n, (s.port p).notices = l ++ x :: r → (l ++ x :: r).length = 16 → (∀ y ∈ l, x.level < y.level) →
      (∀ y ∈ r, x.level ≤ y.level) →
      s.notify p n = s.setPort p
        { s.port p with notices := if x.level < n.level then l ++ r ++ [n] else l ++ x :: r, lost := true })

/-! ### Guard stop -/

/-- The guard is opened while the part runs (R150, R151). With the line HALTED it matters only if the flag is CLOSED,
which becomes OPEN. Otherwise the line is HALTED, HALT goes to the pumps, GUARD to every port, and in that event
recirculations and stirrings end (R29), waits and dwells end (R114), captures, drip, mix timers and the lid command
stop (R121, R123, R135, R141), and the gate shuts (R95). A tin in TARING loses its tare (R121); an undecided one
with a burst in progress waits for its report; an undecided one without is kept for a fresh tare if no step was
dispensed, and is otherwise spoiled (R115): REJECT with the word SPOILED, last of the claimants, and its attempt
fails (R53). A closing of the guard in HALTED with the flag OPEN sets it CLOSED with GUARD for every port. The model's
choices are that DONE channels become FREE too (log entry 22), that a tin kept for a fresh tare keeps its expected mass
(log entry 23), and that the guard input is held in State (log entry 15). -/
def Obligations.GuardStopsTheLine : Prop :=
  ∀ s : State, s.power = .on →
    let o : State := { s with guardInput := .opened }
    let c : State := { s with guardInput := .closed }
    (∀ t : TinCtx, s.undecided t = true ↔ t.route = .normal ∧
      s.station ∈ [StationState.taring, .dispensing, .drip, .weighing]) ∧
    (s.line.mode = .halted →
      (s.line.guard = some .closed → exec .guardOpened s = .next
        (({ o with line := { s.line with guard := some .opened } }).notifyAll (.guard .opened))) ∧
      (s.line.guard ≠ some .closed → exec .guardOpened s = .next o) ∧
      (s.line.guard = some .opened → exec .guardClosed s = .next
        (({ c with line := { s.line with guard := some .closed } }).notifyAll (.guard .closed))) ∧
      (s.line.guard ≠ some .opened → exec .guardClosed s = .next c)) ∧
    (s.line.mode ≠ .halted → exec .guardClosed s = .next c ∧
      let rest := fun m : Mixer => if m.state = .mixing then { m with timer := none } else m
      let b : State := { ({ o with
          line := { s.line with mode := .halted, guard := some .opened }, sent := s.sent ++ [Sent.halt] }).notifyAll (.guard .opened) with
        canisters := mapVec (fun x : Canister => match x.state with
          | .recirc => { x with state := .settled, stirrer := false, settleTimer := none, keepTimer := none, demand := true }
          | .stirring => { x with state := .ready, stirrer := false, keepTimer := none
                                  settleTimer := some (x.kept.settleLimit * 60000) }
          | _ => x) s.canisters
        channels := mapVec (fun x : Channel =>
          if x.state ∈ [ChanState.waitRecirc, .waitCharge, .dwell] then Channel.free else x) s.channels
        gateOpen := false, capture := .none, scaleTimer := none, dripTimer := none, m1 := rest s.m1, m2 := rest s.m2
        lidder := if s.lidder.state = .lidding then { s.lidder with cmdOut := false } else s.lidder }
      (s.tin = none → exec .guardOpened s = .next b) ∧
      ∀ t, s.tin = some t →
        (s.station = .taring → exec .guardOpened s = .next { b with tin := some { t with tare := none } }) ∧
        (s.station ≠ .taring → s.undecided t = false → exec .guardOpened s = .next b) ∧
        (s.station ≠ .taring → s.undecided t = true → (∃ d, (s.chan d).state = .burst) →
          exec .guardOpened s = .next { b with
            tin := some { t with stop := .guard }
            channels := mapVec (fun x : Channel => if x.state = .burst then x else Channel.free) s.channels }) ∧
        (s.station ≠ .taring → s.undecided t = true → (∀ d, (s.chan d).state ≠ .burst) →
          (t.dispensed.sum = 0 → exec .guardOpened s = .next { b with
            channels := Vector.replicate 4 Channel.free, station := .taring
            tin := some { t with stage := .taring, stop := .none, tare := none, gross := none, net := none } }) ∧
          (0 < t.dispensed.sum → Source.station ∉ s.lidder.claims → exec .guardOpened s = .next
            ({ b with
              channels := Vector.replicate 4 Channel.free, station := .handoff
              tin := some { t with route := .reject, word := some .spoiled, stop := .none, stage := .lidWait }
              lidder := { b.lidder with claims := s.lidder.claims ++ [Source.station] } }.spoilAttempt t))))

/-- A failed attempt of a job that is not cancelled (R53, R68): the steps it dispensed become the pending
re-reservation, none if all are 0; the entry's attempts rise by 1 and hold at 99; tins started falls by 1; and the
job is in the queue again. A spoiled attempt is reserved again at once if every canister has the volume; if one is
short, the job becomes WAITING-STOCK at the head of the first short one's list, out of the queue, with
CANISTER-WAIT for port W and JOB-STATE with cause RETURNED-WAIT for its owner (R54). That the park condition is examined
after that CANISTER-WAIT and before that JOB-STATE is the model's choice (log entry 42). A handle joins the queue at the
tail unless it stands there already, and leaves it wherever it stands (R83); the quota count returns to 0 when the front
changes (R88). -/
def Obligations.SpoiledAttemptsAreReservedAgain : Prop :=
  (∀ (s : State) (h : Handle), (h ∈ s.queue → s.joinQueue h = s) ∧
    (h ∉ s.queue → s.joinQueue h =
      { s with queue := s.queue ++ [h], quota := if s.queue = [] then 0 else s.quota }) ∧
    s.leaveQueue h =
      { s with queue := s.queue.filter (· != h), quota := if s.queue.head? = some h then 0 else s.quota }) ∧
  ∀ (s : State) (t : TinCtx) (j : Job), s.job? t.handle = some j → j.state ≠ .cancelling → j.state ≠ .cancelled →
    t.dispensed.length = j.comps.length →
    let h := t.handle
    let k : Job := { j with
      started := j.started - 1, pendingRe := none
      results := j.results.modify (t.index - 1) fun e : TinResult => { e with attempts := min 99 (e.attempts + 1) } }
    let short := fun x : Nat × Component => 0 < x.1 ∧ s.freeVol x.2.pos < x.1 * (s.can x.2.pos).kept.q
    (s.failAttempt t = (s.putJob h
      { k with pendingRe := if t.dispensed.sum = 0 then none else some t.dispensed }).joinQueue h) ∧
    (t.dispensed.sum = 0 → s.spoilAttempt t = (s.putJob h k).joinQueue h) ∧
    ((∀ x ∈ t.dispensed.zip j.comps, ¬ short x) → s.spoilAttempt t = (s.putJob h
      { k with comps := t.dispensed.zipWith (fun (n : Nat) (c : Component) => { c with reserved := c.reserved + n }) j.comps }).joinQueue h) ∧
    (∀ pre n c post, t.dispensed.zip j.comps = pre ++ (n, c) :: post → (∀ x ∈ pre, ¬ short x) → short (n, c) →
      s.spoilAttempt t =
        (((((s.putJob h { k with state := .waitingStock, pendingRe := some t.dispensed }).joinQueue h).leaveQueue h).setWait
          c.pos (h :: s.waitList c.pos)).notify .w (.canisterWait c.pos h n (n * (s.can c.pos).kept.q))).examinePark.notify
            j.owner (.jobState h .waitingStock .returnedWait))

/-! ### Walks and selections -/

/-- A walk, a selection and an examination of the park condition change only notices, demands and recirculations, wait
lists, the stock side of jobs, the queue, the call and the line mode; an examination of the transfer conditions or
of the lidder's take may also move tins on from the station, a mixer or the lidder. No canister but a SETTLED one
is touched (R25, R49 to R51, R85 to R89, R130, R138, R148). -/
def Obligations.WalksAndSelectionsLeaveTheRest : Prop :=
  ∀ (s : State) (p : Pos), s.Serves (s.walk p) ∧ s.Serves s.select ∧ s.Serves s.examinePark ∧
    s.Moves s.examineTransfer ∧ s.Moves s.examineLidder

/-- A walk serves its list from the head (R49 to R51). It stops at a job whose need on this canister exceeds its free
volume. A job for which every canister has the volume is granted: its needs are reserved, it is READY, or ACTIVE
while it has a call or a tin on the line, it joins the queue, and its owner gets STOCK-GRANTED. A job short on
another canister only moves to that one's list, to the tail if SUBMIT placed it and to the head if it returned,
with CANISTER-WAIT for port W. A grant that made a job READY wakes a PARKING or PARKED line, which becomes RUN with LINE
on every port after the walk's own notices; a line in RUN or HALTED stays as it is (R149). Walks on several canisters run
one after another; that LINE precedes the next walk of the event is the model's choice (log entry 19). -/
def Obligations.WalkServesItsListFromTheHead : Prop :=
  ∀ (s : State) (p : Pos),
    s.walkAll [] = s ∧ (∀ ps, s.walkAll (p :: ps) = (s.walk p).walkAll ps) ∧
    (s.line.mode = .parking ∨ s.line.mode = .parked →
      s.wake = ({ s with line := { s.line with mode := .run, guard := none } }).notifyAll (.line .run)) ∧
    (s.line.mode = .run ∨ s.line.mode = .halted → s.wake = s) ∧
    s.wakeIf true = s.wake ∧ s.wakeIf false = s ∧
    s.walk p = (State.walkFrom p (s.waitList p) false s).1.wakeIf (State.walkFrom p (s.waitList p) false s).2 ∧
    (∀ woke, State.walkFrom p [] woke s = (s, woke)) ∧
    ∀ (h : Handle) (rest : List Handle) (woke : Bool) (j : Job), s.job? h = some j →
      let needs : List Nat := match j.pendingRe with
        | some l => l
        | none => j.comps.map fun c : Component => cumSteps j.n c.exact (c.qSnap * j.vref)
      let short := fun x : Nat × Component => 0 < x.1 ∧ s.freeVol x.2.pos < x.1 * (s.can x.2.pos).kept.q
      let live := if s.called h = true ∨ 0 < s.tinCount h then JobState.active else .ready
      let left := (s.waitList p).filter (· != h)
      needs.length = j.comps.length → (j.comps.map fun c : Component => c.pos).Nodup →
      ((∃ x ∈ needs.zip j.comps, x.2.pos = p ∧ short x) → State.walkFrom p (h :: rest) woke s = (s, woke)) ∧
      ((∀ x ∈ needs.zip j.comps, ¬ short x) →
        State.walkFrom p (h :: rest) woke s = State.walkFrom p rest (woke || live == .ready)
          ((((s.putJob h { j with
            state := live, pendingRe := none
            comps := needs.zipWith (fun (n : Nat) (c : Component) => { c with reserved := c.reserved + n }) j.comps }).setWait p left).joinQueue
              h).notify j.owner (.jobState h live .stockGranted))) ∧
      (∀ pre n c post, needs.zip j.comps = pre ++ (n, c) :: post → (∀ x ∈ pre, ¬ short x) → short (n, c) →
        (∀ x ∈ needs.zip j.comps, x.2.pos = p → ¬ short x) →
        State.walkFrom p (h :: rest) woke s = State.walkFrom p rest woke
          (((s.setWait p left).setWait c.pos
            (if j.pendingRe = none then s.waitList c.pos ++ [h] else h :: s.waitList c.pos)).notify .w
              (.canisterWait c.pos h n (n * (s.can c.pos).kept.q))))

/-- A selection is made with the station IDLE, no call and no tin, in RUN or PARKING (R85). It calls the next tin of the
first candidate in the queue (R86, R89): a job not SUSPENDED, with a tin left to start, no tin called or at the station,
and no LOCKED canister among those its next tin needs. The call is recorded, its timer runs, the owner gets TIN-CALL,
recirculation is asked for each canister needed, a READY job becomes ACTIVE, and the quota rule moves the queue (R88).
Under LOT-BREAK MARK a lot change is marked first; under STOP it suspends the job and the walk goes on behind it (R87).
The owner then gets JOB-STATE; if the event has already told it that the job was granted or resumed, the one notice takes
the state that the event leaves (R70), in its place and not anew if a full queue dropped it (the model's choice, log
entry 38). In PARKING the park condition is examined after that JOB-STATE (the model's choice, log entry 44). With no
candidate nothing changes. -/
def Obligations.SelectionCallsTheFirstCandidate : Prop :=
  (∀ s before : State,
    let may := s.station = .idle ∧ s.call = none ∧ s.tin = none ∧ (s.line.mode = .run ∨ s.line.mode = .parking)
    s.select = s.selectAfter s ∧ (¬ may → s.selectAfter before = s) ∧
    (may → s.selectAfter before = State.selectFrom before s.queue s)) ∧
  (∀ (s before : State) (l : List Handle), s.call = none → s.tin = none →
    let ready := fun j : Job => j.state ≠ .suspended ∧ j.started < j.n ∧
      ∀ x ∈ j.nextSteps.zip j.comps, 0 < x.1 → (s.can x.2.pos).state ≠ .locked
    let passed := fun l : List Handle => ∀ x ∈ l, ∀ j, s.job? x = some j → ¬ ready j
    let broken := fun (j : Job) (c : Component) =>
      0 < cumSteps j.n c.exact (c.qSnap * j.vref) ∧ c.lotSnap ≠ (s.can c.pos).kept.lot
    (passed l → State.selectFrom before l s = s) ∧
    ∀ pre h post j, l = pre ++ h :: post → passed pre → s.job? h = some j → ready j →
      let call : Job → State := fun k =>
        let a : State := (({ s.putJob h k with
          call := some ⟨h, k.nextTin, k.cls, k.base⟩, station := .calling
          callTimer := some (s.line.settings.callTimeout * 1000) }.notify k.owner
            (.tinCall h k.nextTin k.cls k.base)).askAll k.nextSteps k.comps).modJob h fun k =>
              { k with state := if k.state = JobState.ready then .active else k.state }
        let behind := s.queue.filter (· != h)
        if k.n ≤ k.started + 1 then { a with queue := behind, quota := if behind.head? = s.queue.head? then s.quota else 0 }
        else if s.queue.head? = some h then
          if s.line.settings.quota ≤ s.quota + 1 then { a with queue := behind ++ [h], quota := 0 }
          else { a with quota := s.quota + 1 }
        else a
      ((∀ c ∈ j.comps, ¬ broken j c) → State.selectFrom before l s = call j) ∧
      ((∃ c ∈ j.comps, broken j c) →
        (j.dLotBreak = .mark → State.selectFrom before l s = call { j with
          comps := j.comps.map fun c : Component =>
            if 0 < cumSteps j.n c.exact (c.qSnap * j.vref) ∧ c.lotSnap ≠ (s.can c.pos).kept.lot then
              { c with lotSnap := (s.can c.pos).kept.lot, lotBreak := true }
            else c }) ∧
        (j.dLotBreak = .stop →
          let u : State := s.putJob h { j with state := .suspended, cause := some .lotStop }
          let tells := fun n : Notice => ∃ st c, n = .jobState h st c
          let told := fun v : State => (v.port j.owner).notices.countP fun n => match n with
            | .jobState k _ _ => k = h
            | _ => false
          let released := j.state ≠ .waitingStock ∧
            ∃ k, before.job? h = some k ∧ (k.state = .waitingStock ∨ k.state = .suspended)
          (¬ released → State.selectFrom before l s = State.selectFrom before post
            (u.notify j.owner (.jobState h .suspended .lotStop)).examinePark) ∧
          (released → told before < told s → ∀ first n rest, (s.port j.owner).notices = first ++ n :: rest → tells n →
            (∀ x ∈ rest, ¬ tells x) → State.selectFrom before l s = State.selectFrom before post
              (u.setPort j.owner { s.port j.owner with
                notices := first ++ .jobState h .suspended .lotStop :: rest }).examinePark) ∧
          (released → told s ≤ told before →
            State.selectFrom before l s = State.selectFrom before post u.examinePark)))) ∧
  (∀ (j : Job), j.nextSteps = j.comps.map fun x : Component =>
    cumSteps (j.counted + 1) x.exact (x.qSnap * j.vref) - cumSteps j.counted x.exact (x.qSnap * j.vref)) ∧
  ∀ (j : Job) (pre : List TinResult) (e : TinResult) (post : List TinResult), j.results = pre ++ e :: post →
    e.outcome = .pending → (∀ x ∈ pre, x.outcome ≠ .pending) → j.nextTin = e.index

/-- A request for recirculation of a SETTLED canister sets its demand; with its pump IDLE and the line not HALTED the
demand is served at once: RECIRC is sent for the canister's recirculation time, the pump record and the canister
become RECIRC, the stirrer is on. A canister in any other state is left as it is (R25). An examination of a demand that
stands already serves it under the same conditions and otherwise changes nothing. A call asks for each
canister with a nonzero step count (R89), in formula order (the model's choice, log entry 40). -/
def Obligations.RecirculationIsAskedOfSettledCanisters : Prop :=
  ∀ (s : State) (p : Pos),
    ((s.can p).state ≠ .settled → s.askRecirc p = s) ∧
    ((s.can p).state = .settled →
      ((s.pump p).state ≠ .idle ∨ s.line.mode = .halted →
        s.askRecirc p = s.setCan p { s.can p with demand := true }) ∧
      ((s.pump p).state = .idle → s.line.mode ≠ .halted →
        s.askRecirc p = { (s.setCan p { s.can p with
          state := .recirc, demand := false, stirrer := true, settleTimer := none, keepTimer := none }).setPump p
            { s.pump p with state := .recirc } with
          sent := s.sent ++ [Sent.recirc p (s.can p).kept.recircTime] })) ∧
    ((s.can p).demand = true → (s.can p).state = .settled → (s.pump p).state = .idle → s.line.mode ≠ .halted →
      s.examineRecirc p = { (s.setCan p { s.can p with
        state := .recirc, demand := false, stirrer := true, settleTimer := none, keepTimer := none }).setPump p
          { s.pump p with state := .recirc } with
        sent := s.sent ++ [Sent.recirc p (s.can p).kept.recircTime] }) ∧
    ((s.can p).demand = false ∨ (s.can p).state ≠ .settled ∨ (s.pump p).state ≠ .idle ∨ s.line.mode = .halted →
      s.examineRecirc p = s) ∧
    (∀ l, s.askAll l [] = s) ∧ (∀ l, s.askAll [] l = s) ∧
    (∀ (k : Nat) (ks : List Nat) (c : Component) (cs : List Component),
      s.askAll (k :: ks) (c :: cs) = (if k = 0 then s else s.askRecirc c.pos).askAll ks cs)

/-! ### The dispense head -/

/-- The start check of a channel (R104). With the dispensing stop CANCEL the channel becomes DONE, with GUARD it becomes
FREE (R188), its other fields 0 (the model's choice, log entry 37), and while the line is HALTED nothing starts (R114). A SETTLED canister is asked to recirculate and the
channel waits, as it does for a canister in RECIRC. With a READY or STIRRING canister it joins a charge in progress,
charges an empty piston (R106), and otherwise sends a burst of the smallest of the steps remaining, the charge and,
in pulse mode, the pulse burst (R107). -/
def Obligations.StartCheckFollowsCanisterAndPump : Prop :=
  ∀ (s : State) (d : ChanId) (t : TinCtx), s.tin = some t →
    let c := s.chan d
    let x := s.can c.pos
    let m := s.pump c.pos
    (t.stop = .cancel → s.startCheck d = s.setChan d { c with state := .done }) ∧
    (t.stop = .guard → s.startCheck d = s.setChan d
      { comp := 0, pos := 0, remaining := 0, burst := none, state := .free, dwellTimer := none }) ∧
    (t.stop = .none → s.line.mode = .halted → s.startCheck d = s) ∧
    (t.stop = .none → s.line.mode ≠ .halted →
      (x.state = .settled → s.startCheck d = (s.setChan d { c with state := .waitRecirc }).askRecirc c.pos) ∧
      (x.state = .recirc → s.startCheck d = s.setChan d { c with state := .waitRecirc }) ∧
      (x.state = .ready ∨ x.state = .stirring →
        (m.state = .charging → s.startCheck d = s.setChan d { c with state := .waitCharge }) ∧
        (m.state = .idle → m.charge = 0 → s.startCheck d =
          { (s.setPump c.pos { m with state := .charging }).setChan d { c with state := .waitCharge } with
            sent := s.sent ++ [Sent.charge c.pos] }) ∧
        (m.state = .idle → 0 < m.charge →
          let k := if x.kept.pulse = 0 then min c.remaining m.charge else min (min c.remaining m.charge) x.kept.pulse
          s.startCheck d =
            { (s.setPump c.pos { m with state := .burst }).setChan d { c with state := .burst, burst := some k } with
              sent := s.sent ++ [Sent.burst c.pos k] })))

/-- BURST-DONE, or HALT-REPORT, of a pump in BURST (R108, R100): of its steps, at most the burst size is taken (R101). The
pump is IDLE with that much less charge; the channel and the tin take the steps; for one or more the canister is
debited at its current q, its count rises, the record is stored, the latch is examined, and a READY or STIRRING
canister is READY with its settle timer from full (R30, R31); the reservation falls by the same steps (R52), and for a
cancelled job by all that was kept for the burst, a walk following if steps are released (R55). The pump is reported IDLE
(R25), and the channel goes on: with a step left it dwells in pulse mode, or passes the start check (R108, R109); with
none it is DONE and takes the next component or ends the dispensing (R110). Under the stop CANCEL it is DONE, and the
tin goes to HANDOFF when no channel is at work (R113). Under the stop GUARD it is FREE, and the last report settles the
tin: back to TARING if no step was dispensed, else spoiled (R115, R188). The model's choices are that a FREE channel's
other fields are 0 (log entry 37) and that a tin kept for TARING keeps its expected mass (log entry 23). -/
def Obligations.BurstReportsDebitTheCanister : Prop :=
  ∀ (s : State) (p : Pos) (steps size : Nat) (d : ChanId) (t : TinCtx) (j : Job), s.power = .on →
    (s.pump p).state = .burst → (s.chan d).state = .burst → (s.chan d).pos = p → (s.chan d).burst = some size →
    (∀ e, e < d → ¬ ((s.chan e).state = .burst ∧ (s.chan e).pos = p)) → s.tin = some t →
    s.job? t.handle = some j →
    let n := min steps size
    let c := s.chan d
    let x := s.can p
    let level := x.kept.level - n * x.kept.q
    let lows := x.latch && decide (level - x.kept.heel ≤ x.kept.lowMark)
    let fit := x.state = .ready ∨ x.state = .stirring
    let gone := j.state = .cancelling ∨ j.state = .cancelled
    let keptSteps := (j.comps[c.comp]?.map fun y : Component => y.reserved).getD 0
    let left : Channel := { c with remaining := c.remaining - n, burst := none }
    let tin : TinCtx := { t with dispensed := t.dispensed.modify c.comp (· + n) }
    let a : State := { ((s.setPump p { charge := (s.pump p).charge - n, state := .idle }).setChan d left).putJob t.handle
        { j with comps := j.comps.modify c.comp (fun y => { y with reserved := if gone then 0 else y.reserved - n }) } with
      tin := some tin }
    let b : State := if n = 0 then a else
      let put : State := a.putCan p { x with
        kept := { x.kept with level := level, count := (x.kept.count + 1) % 65536 }, latch := x.latch && !lows
        state := if fit then .ready else x.state, stirrer := if x.state = .stirring then false else x.stirrer
        settleTimer := if fit then some (x.kept.settleLimit * 60000) else x.settleTimer
        keepTimer := if x.state = .stirring then none else x.keepTimer }
      if lows then put.notify .w (.canisterLow p (level - x.kept.heel)) else put
    let e : State := (if gone ∧ n < keptSteps then b.walk p else b).examineRecirc p
    let runs : State → Prop := fun v =>
      exec (.burstDone p steps) s = .next (v.selectAfter s) ∧ exec (.haltReport p steps) s = .next (v.selectAfter s)
    let free : Vector Channel 4 := Vector.replicate 4 Channel.free
    (t.stop = .none → runs (
      if c.remaining ≤ n then ((e.setChan d { left with state := .done }).assignTo d).endDispensing
      else if x.kept.pulse = 0 then e.startCheck d
      else e.setChan d { left with state := .dwell, dwellTimer := some x.kept.dwell })) ∧
    (t.stop = .cancel → s.station = .dispensing → t.route = .reject →
      let done : State := e.setChan d { left with state := .done }
      let busy := fun k : ChanId => k ≠ d ∧ (s.chan k).state ∈ [ChanState.waitRecirc, .waitCharge, .burst, .dwell]
      ((∃ k, busy k) → runs done) ∧
      ((∀ k, ¬ busy k) → Source.station ∉ s.lidder.claims → runs (State.examineLidder { done with
        channels := free, station := .handoff, tin := some { tin with stage := .lidWait }
        lidder := { s.lidder with claims := s.lidder.claims ++ [Source.station] } }))) ∧
    (t.stop = .guard →
      ((∃ k, k ≠ d ∧ (s.chan k).state = .burst) → runs (e.setChan d
        { comp := 0, pos := 0, remaining := 0, burst := none, state := .free, dwellTimer := none })) ∧
      ((∀ k, k ≠ d → (s.chan k).state ≠ .burst) →
        (tin.dispensed.sum = 0 → runs { e with
          channels := free, station := .taring
          tin := some { tin with stage := .taring, stop := .none, tare := none, gross := none, net := none }
          capture := if s.line.mode = .halted then s.capture else .tare
          scaleTimer := if s.line.mode = .halted then s.scaleTimer else some s.line.settings.scaleSettle }) ∧
        (0 < tin.dispensed.sum → Source.station ∉ s.lidder.claims → runs ((State.examineLidder { e with
          channels := free, station := .handoff
          tin := some { tin with route := .reject, word := some .spoiled, stop := .none, stage := .lidWait }
          lidder := { s.lidder with claims := s.lidder.claims ++ [Source.station] } }).spoilAttempt tin))))

/-- The other pump reports, each taken in the pump state of its command (R101) and otherwise without effect.
CHARGE-DONE fills the piston, and the waiting channel passes its start check (R106). RECIRC-DONE fills it too; a
canister in RECIRC becomes READY (R26) and the channels waiting for it pass theirs (R105), lowest number first.
HALT-REPORT leaves a piston that was being filled empty (R100); that it lets a channel waiting for the charge start again
is the model's choice (log entry 27). The pump is IDLE, so a demand of its canister is examined (R25). -/
def Obligations.PumpReportsEndTheirOperation : Prop :=
  ∀ (s : State) (p : Pos), s.power = .on →
    let full : Pump := { charge := (s.can p).kept.stroke, state := .idle }
    let empty : Pump := { charge := 0, state := .idle }
    ((s.pump p).state = .charging →
      exec (.chargeDone p) s = .next (((s.setPump p full).examineRecirc p).resumeCharge p) ∧
      ∀ n, exec (.haltReport p n) s = .next (((s.setPump p empty).examineRecirc p).resumeCharge p)) ∧
    ((s.pump p).state = .recirc →
      ((s.can p).state = .recirc → exec (.recircDone p) s = .next (((s.setPump p full).setCan p { s.can p with
        state := .ready, stirrer := false, settleTimer := some ((s.can p).kept.settleLimit * 60000)
        keepTimer := none }).resumeRecirc p)) ∧
      ((s.can p).state ≠ .recirc → exec (.recircDone p) s = .next ((s.setPump p full).examineRecirc p)) ∧
      ∀ n, exec (.haltReport p n) s = .next ((s.setPump p empty).examineRecirc p)) ∧
    ((s.pump p).state ≠ .burst → ∀ n, exec (.burstDone p n) s = .next s) ∧
    ((s.pump p).state ≠ .charging → exec (.chargeDone p) s = .next s) ∧
    ((s.pump p).state ≠ .recirc → exec (.recircDone p) s = .next s) ∧
    ((s.pump p).state = .idle → ∀ n, exec (.haltReport p n) s = .next s) ∧
    (∀ st : ChanState, (∀ d, (s.chan d).state = st → (s.chan d).pos ≠ p) →
      (st = .waitCharge → s.resumeCharge p = s) ∧ (st = .waitRecirc → s.resumeRecirc p = s)) ∧
    (∀ (st : ChanState) (d : ChanId), (s.chan d).state = st → (s.chan d).pos = p →
      (∀ k, k ≠ d → (s.chan k).state = st → (s.chan k).pos ≠ p) →
      (st = .waitCharge → s.resumeCharge p = s.startCheck d) ∧ (st = .waitRecirc → s.resumeRecirc p = s.startCheck d)) ∧
    (let resume := fun (st : ChanState) (v : State) (d : ChanId) =>
       if (v.chan d).state = st ∧ (v.chan d).pos = p then v.startCheck d else v
     s.resumeCharge p = resume .waitCharge (resume .waitCharge (resume .waitCharge (resume .waitCharge s 0) 1) 2) 3 ∧
     s.resumeRecirc p = resume .waitRecirc (resume .waitRecirc (resume .waitRecirc (resume .waitRecirc s 0) 1) 2) 3)

/-- A tare capture ends at the first READING that is stable and not overloaded, with its mass, or at the scale settle
timer's expiry without one (R119, R120). The gate shuts, the station enters DISPENSING and components are assigned
to channels (R98): in formula order, the first with steps to dispense that no channel holds, to the lowest-numbered FREE
channel, which passes the start check (R103). When no channel is at work and nothing is left to assign, or the stop is
CANCEL, the dispensing ends (R110): a NORMAL tin drips for 400 ms (R111), a REJECT tin goes to HANDOFF. A reading that is
unstable or overloaded, one in HALTED, and one with no capture are discarded (R119). -/
def Obligations.TareEndsAndDispensingBegins : Prop :=
  (∀ (s : State), s.power = .on →
    let go : Option Nat → State := fun mass =>
      ({ s with
        capture := .none, scaleTimer := none, gateOpen := false, station := .dispensing
        tin := s.tin.map fun t : TinCtx => { t with tare := mass, stage := .dispensing } }).assignAll.endDispensing.select
    (∀ mass, mass ≤ 100000000 →
      (s.capture = .tare → s.line.mode ≠ .halted → exec (.reading mass true false) s = .next (go (some mass))) ∧
      (∀ stable overload, stable = false ∨ overload = true ∨ s.line.mode = .halted ∨ s.capture = .none →
        exec (.reading mass stable overload) s = .next s)) ∧
    (s.capture = .tare → s.scaleTimer ≠ none → exec .scaleSettleTimeout s = .next (go none)) ∧
    (s.scaleTimer = none → exec .scaleSettleTimeout s = .next s)) ∧
  (∀ s : State, let assign := fun (v : State) (d : ChanId) => if (v.chan d).state = .free then v.assignTo d else v
    s.assignAll = assign (assign (assign (assign s 0) 1) 2) 3) ∧
  ∀ (s : State) (d : ChanId) (t : TinCtx) (j : Job), s.tin = some t → s.job? t.handle = some j →
    t.steps.length = j.comps.length → t.dispensed.length = j.comps.length →
    let toDo := fun i : Nat => t.dispensed.getD i 0 < t.steps.getD i 0 ∧
      ∀ k, (s.chan k).state ≠ .free → (s.chan k).comp ≠ i
    let atWork := fun k : ChanId => (s.chan k).state ∈ [ChanState.waitRecirc, .waitCharge, .burst, .dwell]
    let ended := s.station = .dispensing ∧ t.stop ≠ .guard ∧ (∀ k, ¬ atWork k) ∧ ((∀ i, ¬ toDo i) ∨ t.stop = .cancel)
    (∀ (i : Nat) (c : Component), j.comps[i]? = some c → toDo i → (∀ k, k < i → ¬ toDo k) →
      s.assignTo d = (s.setChan d
        { comp := i, pos := c.pos, remaining := t.steps.getD i 0 - t.dispensed.getD i 0, burst := none, state := .done
          dwellTimer := none }).startCheck d) ∧
    ((∀ i, ¬ toDo i) → s.assignTo d = s) ∧
    (¬ ended → s.endDispensing = s) ∧
    (ended → t.route = .normal → s.endDispensing = { s with
      channels := Vector.replicate 4 Channel.free, station := .drip, dripTimer := some 400
      tin := some { t with stage := .drip } }) ∧
    (ended → t.route = .reject → Source.station ∉ s.lidder.claims → s.endDispensing = State.examineLidder { s with
      channels := Vector.replicate 4 Channel.free, station := .handoff, tin := some { t with stage := .lidWait }
      lidder := { s.lidder with claims := s.lidder.claims ++ [Source.station] } })

/-- A tin is judged when its gross capture ends (R122, R124): NOT-CHECKED below the weigh floor; else WEIGH-NONE with no
tare or no gross; else WEIGH-OUT when the deviation of the net from the expected mass exceeds the larger of the
absolute tolerance and the relative one; else a pass. A counted tin (R125) carries its marks, W or N by the outcome
and L and S by the job; every S(c) and c advance (R15); its entry is IN-FLIGHT with the figures; and it waits for a
mixer (R112). Under STOP it is rejected (R126): its attempt fails, the job is SUSPENDED with the cause, and the tin
joins the claimants as the last, where an IDLE lidder takes its head claimant in the same event (R138). The suspension
writes state and cause, JOB-STATE with the cause goes to the owner, and the park condition is examined (R67, R148). -/
def Obligations.GrossIsJudged : Prop :=
  (∀ (s : State) (h : Handle) (j : Job) (cause : Cause), s.job? h = some j → s.suspend h cause =
    ((s.putJob h { j with state := .suspended, cause := some cause }).notify j.owner
      (.jobState h .suspended cause)).examinePark) ∧
  ∀ (s : State) (mass : Option Nat) (t : TinCtx) (j : Job), s.power = .on → s.capture = .gross → s.tin = some t →
    s.job? t.handle = some j → Source.station ∉ s.lidder.claims →
    let run : State → Prop := fun v => match mass with
      | some m => m ≤ 100000000 → s.line.mode ≠ .halted → exec (.reading m true false) s = .next v
      | none => s.scaleTimer ≠ none → exec .scaleSettleTimeout s = .next v
    let e := t.expected.getD 0
    let net : Option Int := match t.tare, mass with
      | some a, some g => some ((g : Int) - (a : Int))
      | _, _ => none
    let allowed := max s.line.settings.absTol (e * s.line.settings.relTol / 1000)
    let marks : Bool → Bool → Marks := fun w n =>
      { w := w, n := n, l := j.comps.any (·.lotBreak), s := j.comps.any (·.substep) }
    let b : State := { s with capture := .none, scaleTimer := none, station := .handoff }
    let t2 : TinCtx := { t with gross := mass, net := net }
    let counted : Bool → Bool → State := fun w n =>
      (({ b with tin := some { t2 with marks := marks w n, stage := .mixWait } }.putJob t.handle { j with
        comps := j.comps.map fun c : Component => { c with cum := cumSteps (j.counted + 1) c.exact (c.qSnap * j.vref) }
        counted := j.counted + 1
        results := j.results.modify (t.index - 1) fun e : TinResult => { e with
          outcome := .inFlight, steps := some t.steps, expected := t.expected, net := net
          marks := some (marks w n) } }).examineTransfer).select
    let rejected : Bool → Bool → Cause → State := fun w n cause =>
      (State.examineLidder { (s.failAttempt t).suspend t.handle cause with
        capture := .none, scaleTimer := none, station := .handoff
        tin := some { t2 with marks := marks w n, route := .reject, word := some .reject, stage := .lidWait }
        lidder := { s.lidder with claims := s.lidder.claims ++ [Source.station] } }).select
    (e < s.line.settings.weighFloor → run (counted false true)) ∧
    (s.line.settings.weighFloor ≤ e →
      (net = none → (j.dWeighNone = .mark → run (counted false true)) ∧
        (j.dWeighNone = .stop → run (rejected false true .weighNoneStop))) ∧
      (∀ z, net = some z →
        ((z - (e : Int)).natAbs ≤ allowed → run (counted false false)) ∧
        (allowed < (z - (e : Int)).natAbs → (j.dWeighOut = .mark → run (counted true false)) ∧
          (j.dWeighOut = .stop → run (rejected true false .weighStop)))))

/-- A SCAN whose codes are those of the standing call admits the tin (R93): the gate opens, the call and its timer end,
the expiry count returns to 0, tins started rises, the tin's context begins in TARING with the step counts of R9
(R97), and a tare capture begins (R120). Other codes queue WRONG-TIN with them for the called job's owner; with no
call, or in HALTED, a SCAN is ignored (R94). -/
def Obligations.ScanAdmitsTheCalledTin : Prop :=
  ∀ (s : State) (cls base : Text), s.power = .on → cls.length = 2 → base.length = 4 →
    (s.call = none ∨ s.line.mode = .halted → exec (.scan cls base) s = .next s) ∧
    ∀ (c : Call) (j : Job), s.call = some c → s.station = .calling → s.line.mode ≠ .halted →
      s.job? c.handle = some j →
      (¬ (cls = c.cls ∧ base = c.base) →
        exec (.scan cls base) s = .next (s.notify j.owner (.wrongTin cls base))) ∧
      (cls = c.cls → base = c.base →
        exec (.scan cls base) s = .next ({ s with
          gateOpen := true, call := none, callTimer := none, station := .taring
          capture := .tare, scaleTimer := some s.line.settings.scaleSettle
          tin := some
            { handle := c.handle, index := c.index, stop := .none, stage := .taring
              steps := j.comps.map fun x : Component => cumSteps (j.counted + 1) x.exact (x.qSnap * j.vref) -
                cumSteps j.counted x.exact (x.qSnap * j.vref)
              dispensed := j.comps.map fun _ => 0
              tare := none, gross := none, net := none, expected := none, route := .normal
              marks := { w := false, n := false, l := false, s := false }, word := none } }.putJob c.handle
            { j with expiries := 0, started := j.started + 1 }))

/-- Timers of the canister table and the head. The settle timer's expiry turns a READY canister STIRRING in RUN and
PARKING, and SETTLED in PARKED and HALTED (R27); the keep-stir timer's turns a STIRRING one READY (R28), and
channels that wait for it pass the start check (R105; here the model's choice, log entry 31); the dwell
timer's sends the channel through the start check (R109); the drip's begins the gross capture with the expected mass
at the current q and density (R111, R17, R122). A timer that is not running does not expire. -/
def Obligations.CanisterAndHeadTimersExpire : Prop :=
  ∀ (s : State) (p : Pos) (d : ChanId), s.power = .on →
    let c := s.can p
    let ready : State := s.setCan p { c with
      state := .ready, stirrer := false, settleTimer := some (c.kept.settleLimit * 60000), keepTimer := none }
    (c.state = .ready → c.settleTimer ≠ none →
      (s.line.mode = .run ∨ s.line.mode = .parking → exec (.settleTimerExpiry p) s = .next (s.setCan p { c with
        state := .stirring, stirrer := true, settleTimer := none, keepTimer := some (c.kept.keepStir * 1000) })) ∧
      (s.line.mode = .parked ∨ s.line.mode = .halted → exec (.settleTimerExpiry p) s = .next (s.setCan p { c with
        state := .settled, stirrer := false, settleTimer := none, keepTimer := none }))) ∧
    (c.state ≠ .ready ∨ c.settleTimer = none → exec (.settleTimerExpiry p) s = .next s) ∧
    (c.state = .stirring → c.keepTimer ≠ none → exec (.keepStirTimerExpiry p) s = .next (ready.resumeRecirc p)) ∧
    (c.state ≠ .stirring ∨ c.keepTimer = none → exec (.keepStirTimerExpiry p) s = .next s) ∧
    ((s.chan d).state = .dwell → (s.chan d).dwellTimer ≠ none → exec (.dwellTimerExpiry d) s = .next
      ((s.setChan d { s.chan d with dwellTimer := none }).startCheck d)) ∧
    ((s.chan d).state ≠ .dwell ∨ (s.chan d).dwellTimer = none → exec (.dwellTimerExpiry d) s = .next s) ∧
    (s.station ≠ .drip ∨ s.dripTimer = none → exec .dripTimerExpiry s = .next s) ∧
    ∀ (t : TinCtx) (j : Job), s.tin = some t → s.job? t.handle = some j → s.station = .drip → s.dripTimer ≠ none →
      let sum := ((t.steps.zip j.comps).map fun x : Nat × Component =>
        x.1 * (s.can x.2.pos).kept.q * (s.can x.2.pos).kept.density).sum
      exec .dripTimerExpiry s = .next { s with
        station := .weighing, dripTimer := none, capture := .gross, scaleTimer := some s.line.settings.scaleSettle
        tin := some { t with stage := .weighing, expected := some ((2 * sum + 1000000) / 2000000) } }

/-! ### Calls, mixers, lidder and lanes -/

/-- The call timer's expiry withdraws the call (R91): the station is IDLE, the job's expiry count rises, it is READY if
it now has no tin on the line (R66), and its handle goes to the tail of the queue, where the quota count returns to
0 if the front changed hands. At the third expiry the job is SUSPENDED with cause CALL-EXPIRED and its owner gets
JOB-STATE. The park condition is examined and a selection follows. In HALTED the timer is paused (R90). -/
def Obligations.CallTimerExpiryWithdrawsTheCall : Prop :=
  ∀ (s : State), s.power = .on →
    (s.callTimer = none ∨ s.call = none ∨ s.line.mode = .halted → exec .callTimerExpiry s = .next s) ∧
    ∀ (c : Call) (j : Job), s.call = some c → s.callTimer ≠ none → s.line.mode ≠ .halted → s.job? c.handle = some j →
      let h := c.handle
      let calm := if j.state = .active ∧ s.tinCount h = 0 ∧ j.counted < j.n then JobState.ready else j.state
      let u : State := { s with
        call := none, callTimer := none, station := .idle, queue := s.queue.filter (· != h) ++ [h]
        quota := if s.queue.head? = some h ∨ s.queue = [] then 0 else s.quota }
      (j.expiries ≠ 2 → exec .callTimerExpiry s = .next
        ((u.putJob h { j with state := calm, expiries := j.expiries + 1 }).examinePark.select)) ∧
      (j.expiries = 2 → exec .callTimerExpiry s = .next
        ((((u.putJob h { j with state := .suspended, cause := some .callExpired, expiries := 3 }).notify j.owner
          (.jobState h .suspended .callExpired)).examinePark).examinePark.select))

/-- A counted tin in HANDOFF is sent to M1 if it is IDLE and to M2 otherwise, with no transfer of it in progress and the
line not HALTED (R130); where one of these fails, or no mixer is IDLE, nothing changes. LOADED puts it in the mixer, which mixes for its class's mix time, stopped while HALTED, and
the station is IDLE (R131); mix times are seconds, timers milliseconds. At the mix timer's expiry the mixer is HOLDING and claims the lidder (R132, R137). A
CLAMP-FAULT takes a mixer OUT with the tin it holds, ends its transfer, claim and timer, and puts MIXER-FAULT on
every port; a transfer it ended is examined again (R133). That a CLAMP-FAULT in HOLDING lets the lidder examine its
claims, and a selection follow, is the model's choice (log entry 30). Each event has no effect in other mixer
states. -/
def Obligations.MixersTakeMixAndFault : Prop :=
  ∀ (s : State) (m : MixerId), s.power = .on →
    (∀ t : TinCtx, s.tin = some t → s.station = .handoff → t.stage = .mixWait → s.line.mode ≠ .halted →
      (∀ n, ¬ ((s.mixer n).state = .loading ∧ (s.mixer n).expected = some (t.handle, t.index))) →
      let go : MixerId → State := fun n => { s.setMixer n { s.mixer n with state := .loading, expected := some (t.handle, t.index) } with
        sent := s.sent ++ [Sent.transfer n] }
      s.examineTransfer = if s.m1.state = .idle then go .m1 else if s.m2.state = .idle then go .m2 else s) ∧
    (s.tin = none ∨ s.station ≠ .handoff ∨ s.line.mode = .halted → s.examineTransfer = s) ∧
    (∀ t : TinCtx, s.tin = some t →
      t.stage ≠ .mixWait ∨ (∃ n, (s.mixer n).state = .loading ∧ (s.mixer n).expected = some (t.handle, t.index)) →
      s.examineTransfer = s) ∧
    (∀ t : TinCtx, (s.mixer m).state = .loading → s.tin = some t →
      exec (.loaded m) s = .next ({ s.setMixer m
        { state := .mixing, tin := some { t with stage := .mixing }, expected := none
          timer := if s.line.mode = LineMode.halted then none else some (s.mixMs t.handle) } with
          station := .idle, tin := none }.examinePark.select)) ∧
    ((s.mixer m).state ≠ .loading → exec (.loaded m) s = .next s) ∧
    ((s.mixer m).state = .mixing → (s.mixer m).timer ≠ none → mixerSource m ∉ s.lidder.claims →
      exec (.mixTimerExpiry m) s = .next ({ s.setMixer m
        { state := .holding, tin := (s.mixer m).tin.map fun t : TinCtx => { t with stage := .lidWait }
          expected := none, timer := none } with
          lidder := { s.lidder with claims := s.lidder.claims ++ [mixerSource m] } }.examineLidder.select)) ∧
    ((s.mixer m).state ≠ .mixing ∨ (s.mixer m).timer = none → exec (.mixTimerExpiry m) s = .next s) ∧
    (let out : State → State := fun u =>
      (u.setMixer m { state := .out, tin := (s.mixer m).tin, expected := none, timer := none }).notifyAll
        (.mixerFault m ((s.mixer m).tin.map fun t => (t.handle, t.index)))
     ((s.mixer m).state = .idle ∨ (s.mixer m).state = .mixing → exec (.clampFault m) s = .next (out s)) ∧
     ((s.mixer m).state = .loading → exec (.clampFault m) s = .next (out s).examineTransfer) ∧
     ((s.mixer m).state = .holding → exec (.clampFault m) s = .next ((out { s with
       lidder := { s.lidder with claims := s.lidder.claims.filter (· != mixerSource m) } }).examineLidder.select)) ∧
     ((s.mixer m).state = .out → exec (.clampFault m) s = .next s)) ∧
    (∀ (h : Handle) (j : Job) (pre : List TinClass) (c : TinClass) (post : List TinClass), s.job? h = some j →
      s.classes = pre ++ c :: post → c.code = j.cls → (∀ x ∈ pre, x.code ≠ j.cls) → s.mixMs h = c.mixTime * 1000)

/-- An IDLE lidder on a line not HALTED takes the tin of its head claimant (R138): the label is built from the tin's
context and the job (R139; that a REJECT tin with neither W nor N is the unjudged one, whose marks the lidder writes, is
the model's choice, log entry 28), the destination is the owner's lane or LX, LID-START goes out, and the source is
released. LIDDED with the command outstanding places the tin where its lane has room (R140, R142): the count rises, a
NORMAL tin is DELIVERED with TIN-OUT for its owner, and the job becomes DONE or CANCELLED with its last tin (R143, R69,
R75). Without room the tin waits, and LANE-FULL goes to the ports of the lane (R144). TIN-TAKEN lowers a lane's count,
0 staying 0, and a tin that waits for that lane is examined; in HALTED, or without room, it stays (R141). The lidder
takes nothing while it is not IDLE, in HALTED, or without a claimant. A job keeps its state while a call or another tin of
it remains, and in SUSPENDED and WAITING-STOCK. -/
def Obligations.LidderTakesAndPlacesTins : Prop :=
  ∀ (s : State), s.power = .on →
    (∀ (src : Source) (rest : List Source) (t : TinCtx) (j : Job), s.lidder.state = .idle → s.line.mode ≠ .halted → s.lidder.claims = src :: rest →
      s.sourceTin src = some t → s.job? t.handle = some j →
      s.examineLidder = ({ s with
        lidder := { state := .lidding, tin := some { t with stage := .lidding }, label := some (buildLabel j t)
                    dest := some (if t.route = Route.normal then ownerLane j.owner else .lx), cmdOut := true
                    claims := rest }
        sent := s.sent ++ [Sent.lidStart (buildLabel j t)] }).releaseSource src) ∧
    (s.lidder.state ≠ .idle ∨ s.line.mode = .halted ∨ s.lidder.claims = [] → s.examineLidder = s) ∧
    (s.lidder.state ≠ .laneWait ∨ s.line.mode = .halted ∨
      (∀ x, s.lidder.dest = some x → laneCapacity x ≤ s.lanes.count x) → s.examineLane = s) ∧
    (s.lidder.state ≠ .lidding ∨ s.lidder.cmdOut = false → exec .lidded s = .next s) ∧
    (∀ (t : TinCtx) (x : Lane) (j : Job), s.lidder.tin = some t → s.lidder.dest = some x → s.job? t.handle = some j →
      let placed : State := { s with
        lanes := s.lanes.setCount x (s.lanes.count x + 1)
        lidder := { state := .idle, tin := none, label := none, dest := none, cmdOut := false
                    claims := s.lidder.claims } }
      let marks : Marks := (((j.results[t.index - 1]?).bind fun e : TinResult => e.marks).getD { w := false, n := false, l := false, s := false })
      let a : State := if t.route = .normal then
          (placed.putJob t.handle { j with
            delivered := j.delivered + 1
            results := j.results.modify (t.index - 1) fun e : TinResult => { e with outcome := .delivered, lane := some x } }).notify
              j.owner (.tinOut t.handle t.index x marks)
        else placed
      let b : State := (a.contextEnded t.handle).examinePark.examineLidder
      (s.lidder.state = .lidding → s.lidder.cmdOut = true →
        (s.lanes.count x < laneCapacity x → exec .lidded s = .next b.select) ∧
        (laneCapacity x ≤ s.lanes.count x → exec .lidded s = .next (({ s with
          lidder := { s.lidder with state := .laneWait, cmdOut := false, tin := some { t with stage := .laneWait } } }).notifyEach
            (if x = Lane.la then [Port.a] else if x = Lane.lb then [.b] else if x = Lane.lc then [.c] else [.a, .b, .c]) (.laneFull x)))) ∧
      (s.lidder.state = .laneWait → s.line.mode ≠ .halted → s.lanes.count x < laneCapacity x → s.examineLane = b)) ∧
    (∀ x : Lane, let low : State := { s with lanes := s.lanes.setCount x (s.lanes.count x - 1) }
      exec (.tinTaken x) s = .next (if s.lidder.dest = some x then low.examineLane.select else low)) ∧
    (∀ (h : Handle) (j : Job), s.job? h = some j →
      (j.state = .active → j.counted = j.n → j.delivered = j.n → s.contextEnded h =
        (s.putJob h { j with state := .done }).notify j.owner (.jobState h .done .done)) ∧
      (j.state = .active → j.counted < j.n → s.tinCount h = 0 → s.called h = false →
        s.contextEnded h = s.putJob h { j with state := .ready }) ∧
      (j.state = .active → j.counted ≠ j.n ∨ j.delivered ≠ j.n →
        0 < s.tinCount h ∨ s.called h = true ∨ j.n ≤ j.counted → s.contextEnded h = s) ∧
      (j.state = .cancelling → s.tinCount h = 0 → s.contextEnded h =
        (s.putJob h { j with state := .cancelled }).notify j.owner (.jobState h .cancelled .cancelled)) ∧
      (j.state = .cancelling → 0 < s.tinCount h → s.contextEnded h = s) ∧
      (j.state ∉ [JobState.active, .cancelling] → s.contextEnded h = s)) ∧
    (∀ m : MixerId, s.sourceTin (mixerSource m) = (s.mixer m).tin ∧ s.releaseSource (mixerSource m) =
      (s.setMixer m { state := .idle, tin := none, expected := none, timer := none }).examineTransfer) ∧
    s.sourceTin .station = s.tin ∧
    s.releaseSource .station = State.examinePark { s with station := .idle, tin := none } ∧
    (∀ (j : Job) (t : TinCtx), buildLabel j t =
      { orderRef := j.orderRef, colour := j.colour, handle := t.handle, index := t.index, count := j.n, cls := j.cls
        base := j.base, lotCodes := (j.comps.filter fun c : Component => c.lotBreak).map fun c : Component => c.code
        marks := if t.route = .reject ∧ t.marks.w = false ∧ t.marks.n = false then
            { w := false, n := false, l := j.comps.any (·.lotBreak), s := j.comps.any (·.substep) }
          else t.marks
        expected := t.expected, net := t.net, word := t.word }) ∧
    [Port.a, .b, .c].map ownerLane = [Lane.la, .lb, .lc] ∧
    [Lane.la, .lb, .lc, .lx].map laneCapacity = [6, 6, 6, 4]
end

