-- ==== Sys2Proof/Laws/State.lean ====
section
/-! SUPPORT. The field lemmas of the state's updates: what each plain update leaves of every other field. -/

namespace Sys2Proof.Machine

variable (s : State)

/-! ### setPort -/

@[simp] theorem setPort_power (p : Port) (v : PortState) : (s.setPort p v).power = s.power := rfl
@[simp] theorem setPort_guardInput (p : Port) (v : PortState) : (s.setPort p v).guardInput = s.guardInput := rfl
@[simp] theorem setPort_line (p : Port) (v : PortState) : (s.setPort p v).line = s.line := rfl
@[simp] theorem setPort_canisters (p : Port) (v : PortState) : (s.setPort p v).canisters = s.canisters := rfl
@[simp] theorem setPort_pumps (p : Port) (v : PortState) : (s.setPort p v).pumps = s.pumps := rfl
@[simp] theorem setPort_waits (p : Port) (v : PortState) : (s.setPort p v).waits = s.waits := rfl
@[simp] theorem setPort_slots (p : Port) (v : PortState) : (s.setPort p v).slots = s.slots := rfl
@[simp] theorem setPort_classes (p : Port) (v : PortState) : (s.setPort p v).classes = s.classes := rfl
@[simp] theorem setPort_queue (p : Port) (v : PortState) : (s.setPort p v).queue = s.queue := rfl
@[simp] theorem setPort_quota (p : Port) (v : PortState) : (s.setPort p v).quota = s.quota := rfl
@[simp] theorem setPort_call (p : Port) (v : PortState) : (s.setPort p v).call = s.call := rfl
@[simp] theorem setPort_callTimer (p : Port) (v : PortState) : (s.setPort p v).callTimer = s.callTimer := rfl
@[simp] theorem setPort_gateOpen (p : Port) (v : PortState) : (s.setPort p v).gateOpen = s.gateOpen := rfl
@[simp] theorem setPort_station (p : Port) (v : PortState) : (s.setPort p v).station = s.station := rfl
@[simp] theorem setPort_tin (p : Port) (v : PortState) : (s.setPort p v).tin = s.tin := rfl
@[simp] theorem setPort_channels (p : Port) (v : PortState) : (s.setPort p v).channels = s.channels := rfl
@[simp] theorem setPort_dripTimer (p : Port) (v : PortState) : (s.setPort p v).dripTimer = s.dripTimer := rfl
@[simp] theorem setPort_capture (p : Port) (v : PortState) : (s.setPort p v).capture = s.capture := rfl
@[simp] theorem setPort_scaleTimer (p : Port) (v : PortState) : (s.setPort p v).scaleTimer = s.scaleTimer := rfl
@[simp] theorem setPort_m1 (p : Port) (v : PortState) : (s.setPort p v).m1 = s.m1 := rfl
@[simp] theorem setPort_m2 (p : Port) (v : PortState) : (s.setPort p v).m2 = s.m2 := rfl
@[simp] theorem setPort_lidder (p : Port) (v : PortState) : (s.setPort p v).lidder = s.lidder := rfl
@[simp] theorem setPort_lanes (p : Port) (v : PortState) : (s.setPort p v).lanes = s.lanes := rfl
@[simp] theorem setPort_store (p : Port) (v : PortState) : (s.setPort p v).store = s.store := rfl
@[simp] theorem setPort_sent (p : Port) (v : PortState) : (s.setPort p v).sent = s.sent := rfl
@[simp] theorem setPort_pending (p : Port) (v : PortState) : (s.setPort p v).pending = s.pending := rfl

/-! ### setCan -/

@[simp] theorem setCan_power (p : Pos) (c : Canister) : (s.setCan p c).power = s.power := rfl
@[simp] theorem setCan_guardInput (p : Pos) (c : Canister) : (s.setCan p c).guardInput = s.guardInput := rfl
@[simp] theorem setCan_line (p : Pos) (c : Canister) : (s.setCan p c).line = s.line := rfl
@[simp] theorem setCan_ports (p : Pos) (c : Canister) : (s.setCan p c).ports = s.ports := rfl
@[simp] theorem setCan_pumps (p : Pos) (c : Canister) : (s.setCan p c).pumps = s.pumps := rfl
@[simp] theorem setCan_waits (p : Pos) (c : Canister) : (s.setCan p c).waits = s.waits := rfl
@[simp] theorem setCan_slots (p : Pos) (c : Canister) : (s.setCan p c).slots = s.slots := rfl
@[simp] theorem setCan_classes (p : Pos) (c : Canister) : (s.setCan p c).classes = s.classes := rfl
@[simp] theorem setCan_queue (p : Pos) (c : Canister) : (s.setCan p c).queue = s.queue := rfl
@[simp] theorem setCan_quota (p : Pos) (c : Canister) : (s.setCan p c).quota = s.quota := rfl
@[simp] theorem setCan_call (p : Pos) (c : Canister) : (s.setCan p c).call = s.call := rfl
@[simp] theorem setCan_callTimer (p : Pos) (c : Canister) : (s.setCan p c).callTimer = s.callTimer := rfl
@[simp] theorem setCan_gateOpen (p : Pos) (c : Canister) : (s.setCan p c).gateOpen = s.gateOpen := rfl
@[simp] theorem setCan_station (p : Pos) (c : Canister) : (s.setCan p c).station = s.station := rfl
@[simp] theorem setCan_tin (p : Pos) (c : Canister) : (s.setCan p c).tin = s.tin := rfl
@[simp] theorem setCan_channels (p : Pos) (c : Canister) : (s.setCan p c).channels = s.channels := rfl
@[simp] theorem setCan_dripTimer (p : Pos) (c : Canister) : (s.setCan p c).dripTimer = s.dripTimer := rfl
@[simp] theorem setCan_capture (p : Pos) (c : Canister) : (s.setCan p c).capture = s.capture := rfl
@[simp] theorem setCan_scaleTimer (p : Pos) (c : Canister) : (s.setCan p c).scaleTimer = s.scaleTimer := rfl
@[simp] theorem setCan_m1 (p : Pos) (c : Canister) : (s.setCan p c).m1 = s.m1 := rfl
@[simp] theorem setCan_m2 (p : Pos) (c : Canister) : (s.setCan p c).m2 = s.m2 := rfl
@[simp] theorem setCan_lidder (p : Pos) (c : Canister) : (s.setCan p c).lidder = s.lidder := rfl
@[simp] theorem setCan_lanes (p : Pos) (c : Canister) : (s.setCan p c).lanes = s.lanes := rfl
@[simp] theorem setCan_store (p : Pos) (c : Canister) : (s.setCan p c).store = s.store := rfl
@[simp] theorem setCan_sent (p : Pos) (c : Canister) : (s.setCan p c).sent = s.sent := rfl
@[simp] theorem setCan_pending (p : Pos) (c : Canister) : (s.setCan p c).pending = s.pending := rfl

/-! ### setPump -/

@[simp] theorem setPump_power (p : Pos) (v : Pump) : (s.setPump p v).power = s.power := rfl
@[simp] theorem setPump_guardInput (p : Pos) (v : Pump) : (s.setPump p v).guardInput = s.guardInput := rfl
@[simp] theorem setPump_line (p : Pos) (v : Pump) : (s.setPump p v).line = s.line := rfl
@[simp] theorem setPump_ports (p : Pos) (v : Pump) : (s.setPump p v).ports = s.ports := rfl
@[simp] theorem setPump_canisters (p : Pos) (v : Pump) : (s.setPump p v).canisters = s.canisters := rfl
@[simp] theorem setPump_waits (p : Pos) (v : Pump) : (s.setPump p v).waits = s.waits := rfl
@[simp] theorem setPump_slots (p : Pos) (v : Pump) : (s.setPump p v).slots = s.slots := rfl
@[simp] theorem setPump_classes (p : Pos) (v : Pump) : (s.setPump p v).classes = s.classes := rfl
@[simp] theorem setPump_queue (p : Pos) (v : Pump) : (s.setPump p v).queue = s.queue := rfl
@[simp] theorem setPump_quota (p : Pos) (v : Pump) : (s.setPump p v).quota = s.quota := rfl
@[simp] theorem setPump_call (p : Pos) (v : Pump) : (s.setPump p v).call = s.call := rfl
@[simp] theorem setPump_callTimer (p : Pos) (v : Pump) : (s.setPump p v).callTimer = s.callTimer := rfl
@[simp] theorem setPump_gateOpen (p : Pos) (v : Pump) : (s.setPump p v).gateOpen = s.gateOpen := rfl
@[simp] theorem setPump_station (p : Pos) (v : Pump) : (s.setPump p v).station = s.station := rfl
@[simp] theorem setPump_tin (p : Pos) (v : Pump) : (s.setPump p v).tin = s.tin := rfl
@[simp] theorem setPump_channels (p : Pos) (v : Pump) : (s.setPump p v).channels = s.channels := rfl
@[simp] theorem setPump_dripTimer (p : Pos) (v : Pump) : (s.setPump p v).dripTimer = s.dripTimer := rfl
@[simp] theorem setPump_capture (p : Pos) (v : Pump) : (s.setPump p v).capture = s.capture := rfl
@[simp] theorem setPump_scaleTimer (p : Pos) (v : Pump) : (s.setPump p v).scaleTimer = s.scaleTimer := rfl
@[simp] theorem setPump_m1 (p : Pos) (v : Pump) : (s.setPump p v).m1 = s.m1 := rfl
@[simp] theorem setPump_m2 (p : Pos) (v : Pump) : (s.setPump p v).m2 = s.m2 := rfl
@[simp] theorem setPump_lidder (p : Pos) (v : Pump) : (s.setPump p v).lidder = s.lidder := rfl
@[simp] theorem setPump_lanes (p : Pos) (v : Pump) : (s.setPump p v).lanes = s.lanes := rfl
@[simp] theorem setPump_store (p : Pos) (v : Pump) : (s.setPump p v).store = s.store := rfl
@[simp] theorem setPump_sent (p : Pos) (v : Pump) : (s.setPump p v).sent = s.sent := rfl
@[simp] theorem setPump_pending (p : Pos) (v : Pump) : (s.setPump p v).pending = s.pending := rfl

/-! ### setChan -/

@[simp] theorem setChan_power (d : ChanId) (c : Channel) : (s.setChan d c).power = s.power := rfl
@[simp] theorem setChan_guardInput (d : ChanId) (c : Channel) : (s.setChan d c).guardInput = s.guardInput := rfl
@[simp] theorem setChan_line (d : ChanId) (c : Channel) : (s.setChan d c).line = s.line := rfl
@[simp] theorem setChan_ports (d : ChanId) (c : Channel) : (s.setChan d c).ports = s.ports := rfl
@[simp] theorem setChan_canisters (d : ChanId) (c : Channel) : (s.setChan d c).canisters = s.canisters := rfl
@[simp] theorem setChan_pumps (d : ChanId) (c : Channel) : (s.setChan d c).pumps = s.pumps := rfl
@[simp] theorem setChan_waits (d : ChanId) (c : Channel) : (s.setChan d c).waits = s.waits := rfl
@[simp] theorem setChan_slots (d : ChanId) (c : Channel) : (s.setChan d c).slots = s.slots := rfl
@[simp] theorem setChan_classes (d : ChanId) (c : Channel) : (s.setChan d c).classes = s.classes := rfl
@[simp] theorem setChan_queue (d : ChanId) (c : Channel) : (s.setChan d c).queue = s.queue := rfl
@[simp] theorem setChan_quota (d : ChanId) (c : Channel) : (s.setChan d c).quota = s.quota := rfl
@[simp] theorem setChan_call (d : ChanId) (c : Channel) : (s.setChan d c).call = s.call := rfl
@[simp] theorem setChan_callTimer (d : ChanId) (c : Channel) : (s.setChan d c).callTimer = s.callTimer := rfl
@[simp] theorem setChan_gateOpen (d : ChanId) (c : Channel) : (s.setChan d c).gateOpen = s.gateOpen := rfl
@[simp] theorem setChan_station (d : ChanId) (c : Channel) : (s.setChan d c).station = s.station := rfl
@[simp] theorem setChan_tin (d : ChanId) (c : Channel) : (s.setChan d c).tin = s.tin := rfl
@[simp] theorem setChan_dripTimer (d : ChanId) (c : Channel) : (s.setChan d c).dripTimer = s.dripTimer := rfl
@[simp] theorem setChan_capture (d : ChanId) (c : Channel) : (s.setChan d c).capture = s.capture := rfl
@[simp] theorem setChan_scaleTimer (d : ChanId) (c : Channel) : (s.setChan d c).scaleTimer = s.scaleTimer := rfl
@[simp] theorem setChan_m1 (d : ChanId) (c : Channel) : (s.setChan d c).m1 = s.m1 := rfl
@[simp] theorem setChan_m2 (d : ChanId) (c : Channel) : (s.setChan d c).m2 = s.m2 := rfl
@[simp] theorem setChan_lidder (d : ChanId) (c : Channel) : (s.setChan d c).lidder = s.lidder := rfl
@[simp] theorem setChan_lanes (d : ChanId) (c : Channel) : (s.setChan d c).lanes = s.lanes := rfl
@[simp] theorem setChan_store (d : ChanId) (c : Channel) : (s.setChan d c).store = s.store := rfl
@[simp] theorem setChan_sent (d : ChanId) (c : Channel) : (s.setChan d c).sent = s.sent := rfl
@[simp] theorem setChan_pending (d : ChanId) (c : Channel) : (s.setChan d c).pending = s.pending := rfl

/-! ### freeChans -/

@[simp] theorem freeChans_power : s.freeChans.power = s.power := rfl
@[simp] theorem freeChans_guardInput : s.freeChans.guardInput = s.guardInput := rfl
@[simp] theorem freeChans_line : s.freeChans.line = s.line := rfl
@[simp] theorem freeChans_ports : s.freeChans.ports = s.ports := rfl
@[simp] theorem freeChans_canisters : s.freeChans.canisters = s.canisters := rfl
@[simp] theorem freeChans_pumps : s.freeChans.pumps = s.pumps := rfl
@[simp] theorem freeChans_waits : s.freeChans.waits = s.waits := rfl
@[simp] theorem freeChans_slots : s.freeChans.slots = s.slots := rfl
@[simp] theorem freeChans_classes : s.freeChans.classes = s.classes := rfl
@[simp] theorem freeChans_queue : s.freeChans.queue = s.queue := rfl
@[simp] theorem freeChans_quota : s.freeChans.quota = s.quota := rfl
@[simp] theorem freeChans_call : s.freeChans.call = s.call := rfl
@[simp] theorem freeChans_callTimer : s.freeChans.callTimer = s.callTimer := rfl
@[simp] theorem freeChans_gateOpen : s.freeChans.gateOpen = s.gateOpen := rfl
@[simp] theorem freeChans_station : s.freeChans.station = s.station := rfl
@[simp] theorem freeChans_tin : s.freeChans.tin = s.tin := rfl
@[simp] theorem freeChans_dripTimer : s.freeChans.dripTimer = s.dripTimer := rfl
@[simp] theorem freeChans_capture : s.freeChans.capture = s.capture := rfl
@[simp] theorem freeChans_scaleTimer : s.freeChans.scaleTimer = s.scaleTimer := rfl
@[simp] theorem freeChans_m1 : s.freeChans.m1 = s.m1 := rfl
@[simp] theorem freeChans_m2 : s.freeChans.m2 = s.m2 := rfl
@[simp] theorem freeChans_lidder : s.freeChans.lidder = s.lidder := rfl
@[simp] theorem freeChans_lanes : s.freeChans.lanes = s.lanes := rfl
@[simp] theorem freeChans_store : s.freeChans.store = s.store := rfl
@[simp] theorem freeChans_sent : s.freeChans.sent = s.sent := rfl
@[simp] theorem freeChans_pending : s.freeChans.pending = s.pending := rfl

/-! ### setWait -/

@[simp] theorem setWait_power (p : Pos) (l : List Handle) : (s.setWait p l).power = s.power := rfl
@[simp] theorem setWait_guardInput (p : Pos) (l : List Handle) : (s.setWait p l).guardInput = s.guardInput := rfl
@[simp] theorem setWait_line (p : Pos) (l : List Handle) : (s.setWait p l).line = s.line := rfl
@[simp] theorem setWait_ports (p : Pos) (l : List Handle) : (s.setWait p l).ports = s.ports := rfl
@[simp] theorem setWait_canisters (p : Pos) (l : List Handle) : (s.setWait p l).canisters = s.canisters := rfl
@[simp] theorem setWait_pumps (p : Pos) (l : List Handle) : (s.setWait p l).pumps = s.pumps := rfl
@[simp] theorem setWait_slots (p : Pos) (l : List Handle) : (s.setWait p l).slots = s.slots := rfl
@[simp] theorem setWait_classes (p : Pos) (l : List Handle) : (s.setWait p l).classes = s.classes := rfl
@[simp] theorem setWait_queue (p : Pos) (l : List Handle) : (s.setWait p l).queue = s.queue := rfl
@[simp] theorem setWait_quota (p : Pos) (l : List Handle) : (s.setWait p l).quota = s.quota := rfl
@[simp] theorem setWait_call (p : Pos) (l : List Handle) : (s.setWait p l).call = s.call := rfl
@[simp] theorem setWait_callTimer (p : Pos) (l : List Handle) : (s.setWait p l).callTimer = s.callTimer := rfl
@[simp] theorem setWait_gateOpen (p : Pos) (l : List Handle) : (s.setWait p l).gateOpen = s.gateOpen := rfl
@[simp] theorem setWait_station (p : Pos) (l : List Handle) : (s.setWait p l).station = s.station := rfl
@[simp] theorem setWait_tin (p : Pos) (l : List Handle) : (s.setWait p l).tin = s.tin := rfl
@[simp] theorem setWait_channels (p : Pos) (l : List Handle) : (s.setWait p l).channels = s.channels := rfl
@[simp] theorem setWait_dripTimer (p : Pos) (l : List Handle) : (s.setWait p l).dripTimer = s.dripTimer := rfl
@[simp] theorem setWait_capture (p : Pos) (l : List Handle) : (s.setWait p l).capture = s.capture := rfl
@[simp] theorem setWait_scaleTimer (p : Pos) (l : List Handle) : (s.setWait p l).scaleTimer = s.scaleTimer := rfl
@[simp] theorem setWait_m1 (p : Pos) (l : List Handle) : (s.setWait p l).m1 = s.m1 := rfl
@[simp] theorem setWait_m2 (p : Pos) (l : List Handle) : (s.setWait p l).m2 = s.m2 := rfl
@[simp] theorem setWait_lidder (p : Pos) (l : List Handle) : (s.setWait p l).lidder = s.lidder := rfl
@[simp] theorem setWait_lanes (p : Pos) (l : List Handle) : (s.setWait p l).lanes = s.lanes := rfl
@[simp] theorem setWait_store (p : Pos) (l : List Handle) : (s.setWait p l).store = s.store := rfl
@[simp] theorem setWait_sent (p : Pos) (l : List Handle) : (s.setWait p l).sent = s.sent := rfl
@[simp] theorem setWait_pending (p : Pos) (l : List Handle) : (s.setWait p l).pending = s.pending := rfl

/-! ### leaveWaits -/

@[simp] theorem leaveWaits_power (h : Handle) : (s.leaveWaits h).power = s.power := rfl
@[simp] theorem leaveWaits_guardInput (h : Handle) : (s.leaveWaits h).guardInput = s.guardInput := rfl
@[simp] theorem leaveWaits_line (h : Handle) : (s.leaveWaits h).line = s.line := rfl
@[simp] theorem leaveWaits_ports (h : Handle) : (s.leaveWaits h).ports = s.ports := rfl
@[simp] theorem leaveWaits_canisters (h : Handle) : (s.leaveWaits h).canisters = s.canisters := rfl
@[simp] theorem leaveWaits_pumps (h : Handle) : (s.leaveWaits h).pumps = s.pumps := rfl
@[simp] theorem leaveWaits_slots (h : Handle) : (s.leaveWaits h).slots = s.slots := rfl
@[simp] theorem leaveWaits_classes (h : Handle) : (s.leaveWaits h).classes = s.classes := rfl
@[simp] theorem leaveWaits_queue (h : Handle) : (s.leaveWaits h).queue = s.queue := rfl
@[simp] theorem leaveWaits_quota (h : Handle) : (s.leaveWaits h).quota = s.quota := rfl
@[simp] theorem leaveWaits_call (h : Handle) : (s.leaveWaits h).call = s.call := rfl
@[simp] theorem leaveWaits_callTimer (h : Handle) : (s.leaveWaits h).callTimer = s.callTimer := rfl
@[simp] theorem leaveWaits_gateOpen (h : Handle) : (s.leaveWaits h).gateOpen = s.gateOpen := rfl
@[simp] theorem leaveWaits_station (h : Handle) : (s.leaveWaits h).station = s.station := rfl
@[simp] theorem leaveWaits_tin (h : Handle) : (s.leaveWaits h).tin = s.tin := rfl
@[simp] theorem leaveWaits_channels (h : Handle) : (s.leaveWaits h).channels = s.channels := rfl
@[simp] theorem leaveWaits_dripTimer (h : Handle) : (s.leaveWaits h).dripTimer = s.dripTimer := rfl
@[simp] theorem leaveWaits_capture (h : Handle) : (s.leaveWaits h).capture = s.capture := rfl
@[simp] theorem leaveWaits_scaleTimer (h : Handle) : (s.leaveWaits h).scaleTimer = s.scaleTimer := rfl
@[simp] theorem leaveWaits_m1 (h : Handle) : (s.leaveWaits h).m1 = s.m1 := rfl
@[simp] theorem leaveWaits_m2 (h : Handle) : (s.leaveWaits h).m2 = s.m2 := rfl
@[simp] theorem leaveWaits_lidder (h : Handle) : (s.leaveWaits h).lidder = s.lidder := rfl
@[simp] theorem leaveWaits_lanes (h : Handle) : (s.leaveWaits h).lanes = s.lanes := rfl
@[simp] theorem leaveWaits_store (h : Handle) : (s.leaveWaits h).store = s.store := rfl
@[simp] theorem leaveWaits_sent (h : Handle) : (s.leaveWaits h).sent = s.sent := rfl
@[simp] theorem leaveWaits_pending (h : Handle) : (s.leaveWaits h).pending = s.pending := rfl

/-! ### setSlot -/

@[simp] theorem setSlot_power (i : Fin 24) (v : Slot) : (s.setSlot i v).power = s.power := rfl
@[simp] theorem setSlot_guardInput (i : Fin 24) (v : Slot) : (s.setSlot i v).guardInput = s.guardInput := rfl
@[simp] theorem setSlot_line (i : Fin 24) (v : Slot) : (s.setSlot i v).line = s.line := rfl
@[simp] theorem setSlot_ports (i : Fin 24) (v : Slot) : (s.setSlot i v).ports = s.ports := rfl
@[simp] theorem setSlot_canisters (i : Fin 24) (v : Slot) : (s.setSlot i v).canisters = s.canisters := rfl
@[simp] theorem setSlot_pumps (i : Fin 24) (v : Slot) : (s.setSlot i v).pumps = s.pumps := rfl
@[simp] theorem setSlot_waits (i : Fin 24) (v : Slot) : (s.setSlot i v).waits = s.waits := rfl
@[simp] theorem setSlot_classes (i : Fin 24) (v : Slot) : (s.setSlot i v).classes = s.classes := rfl
@[simp] theorem setSlot_queue (i : Fin 24) (v : Slot) : (s.setSlot i v).queue = s.queue := rfl
@[simp] theorem setSlot_quota (i : Fin 24) (v : Slot) : (s.setSlot i v).quota = s.quota := rfl
@[simp] theorem setSlot_call (i : Fin 24) (v : Slot) : (s.setSlot i v).call = s.call := rfl
@[simp] theorem setSlot_callTimer (i : Fin 24) (v : Slot) : (s.setSlot i v).callTimer = s.callTimer := rfl
@[simp] theorem setSlot_gateOpen (i : Fin 24) (v : Slot) : (s.setSlot i v).gateOpen = s.gateOpen := rfl
@[simp] theorem setSlot_station (i : Fin 24) (v : Slot) : (s.setSlot i v).station = s.station := rfl
@[simp] theorem setSlot_tin (i : Fin 24) (v : Slot) : (s.setSlot i v).tin = s.tin := rfl
@[simp] theorem setSlot_channels (i : Fin 24) (v : Slot) : (s.setSlot i v).channels = s.channels := rfl
@[simp] theorem setSlot_dripTimer (i : Fin 24) (v : Slot) : (s.setSlot i v).dripTimer = s.dripTimer := rfl
@[simp] theorem setSlot_capture (i : Fin 24) (v : Slot) : (s.setSlot i v).capture = s.capture := rfl
@[simp] theorem setSlot_scaleTimer (i : Fin 24) (v : Slot) : (s.setSlot i v).scaleTimer = s.scaleTimer := rfl
@[simp] theorem setSlot_m1 (i : Fin 24) (v : Slot) : (s.setSlot i v).m1 = s.m1 := rfl
@[simp] theorem setSlot_m2 (i : Fin 24) (v : Slot) : (s.setSlot i v).m2 = s.m2 := rfl
@[simp] theorem setSlot_lidder (i : Fin 24) (v : Slot) : (s.setSlot i v).lidder = s.lidder := rfl
@[simp] theorem setSlot_lanes (i : Fin 24) (v : Slot) : (s.setSlot i v).lanes = s.lanes := rfl
@[simp] theorem setSlot_store (i : Fin 24) (v : Slot) : (s.setSlot i v).store = s.store := rfl
@[simp] theorem setSlot_sent (i : Fin 24) (v : Slot) : (s.setSlot i v).sent = s.sent := rfl
@[simp] theorem setSlot_pending (i : Fin 24) (v : Slot) : (s.setSlot i v).pending = s.pending := rfl

/-! ### send -/

@[simp] theorem send_power (c : Sent) : (s.send c).power = s.power := rfl
@[simp] theorem send_guardInput (c : Sent) : (s.send c).guardInput = s.guardInput := rfl
@[simp] theorem send_line (c : Sent) : (s.send c).line = s.line := rfl
@[simp] theorem send_ports (c : Sent) : (s.send c).ports = s.ports := rfl
@[simp] theorem send_canisters (c : Sent) : (s.send c).canisters = s.canisters := rfl
@[simp] theorem send_pumps (c : Sent) : (s.send c).pumps = s.pumps := rfl
@[simp] theorem send_waits (c : Sent) : (s.send c).waits = s.waits := rfl
@[simp] theorem send_slots (c : Sent) : (s.send c).slots = s.slots := rfl
@[simp] theorem send_classes (c : Sent) : (s.send c).classes = s.classes := rfl
@[simp] theorem send_queue (c : Sent) : (s.send c).queue = s.queue := rfl
@[simp] theorem send_quota (c : Sent) : (s.send c).quota = s.quota := rfl
@[simp] theorem send_call (c : Sent) : (s.send c).call = s.call := rfl
@[simp] theorem send_callTimer (c : Sent) : (s.send c).callTimer = s.callTimer := rfl
@[simp] theorem send_gateOpen (c : Sent) : (s.send c).gateOpen = s.gateOpen := rfl
@[simp] theorem send_station (c : Sent) : (s.send c).station = s.station := rfl
@[simp] theorem send_tin (c : Sent) : (s.send c).tin = s.tin := rfl
@[simp] theorem send_channels (c : Sent) : (s.send c).channels = s.channels := rfl
@[simp] theorem send_dripTimer (c : Sent) : (s.send c).dripTimer = s.dripTimer := rfl
@[simp] theorem send_capture (c : Sent) : (s.send c).capture = s.capture := rfl
@[simp] theorem send_scaleTimer (c : Sent) : (s.send c).scaleTimer = s.scaleTimer := rfl
@[simp] theorem send_m1 (c : Sent) : (s.send c).m1 = s.m1 := rfl
@[simp] theorem send_m2 (c : Sent) : (s.send c).m2 = s.m2 := rfl
@[simp] theorem send_lidder (c : Sent) : (s.send c).lidder = s.lidder := rfl
@[simp] theorem send_lanes (c : Sent) : (s.send c).lanes = s.lanes := rfl
@[simp] theorem send_store (c : Sent) : (s.send c).store = s.store := rfl
@[simp] theorem send_pending (c : Sent) : (s.send c).pending = s.pending := rfl

/-! ### modTin -/

@[simp] theorem modTin_power (f : TinCtx → TinCtx) : (s.modTin f).power = s.power := rfl
@[simp] theorem modTin_guardInput (f : TinCtx → TinCtx) : (s.modTin f).guardInput = s.guardInput := rfl
@[simp] theorem modTin_line (f : TinCtx → TinCtx) : (s.modTin f).line = s.line := rfl
@[simp] theorem modTin_ports (f : TinCtx → TinCtx) : (s.modTin f).ports = s.ports := rfl
@[simp] theorem modTin_canisters (f : TinCtx → TinCtx) : (s.modTin f).canisters = s.canisters := rfl
@[simp] theorem modTin_pumps (f : TinCtx → TinCtx) : (s.modTin f).pumps = s.pumps := rfl
@[simp] theorem modTin_waits (f : TinCtx → TinCtx) : (s.modTin f).waits = s.waits := rfl
@[simp] theorem modTin_slots (f : TinCtx → TinCtx) : (s.modTin f).slots = s.slots := rfl
@[simp] theorem modTin_classes (f : TinCtx → TinCtx) : (s.modTin f).classes = s.classes := rfl
@[simp] theorem modTin_queue (f : TinCtx → TinCtx) : (s.modTin f).queue = s.queue := rfl
@[simp] theorem modTin_quota (f : TinCtx → TinCtx) : (s.modTin f).quota = s.quota := rfl
@[simp] theorem modTin_call (f : TinCtx → TinCtx) : (s.modTin f).call = s.call := rfl
@[simp] theorem modTin_callTimer (f : TinCtx → TinCtx) : (s.modTin f).callTimer = s.callTimer := rfl
@[simp] theorem modTin_gateOpen (f : TinCtx → TinCtx) : (s.modTin f).gateOpen = s.gateOpen := rfl
@[simp] theorem modTin_station (f : TinCtx → TinCtx) : (s.modTin f).station = s.station := rfl
@[simp] theorem modTin_channels (f : TinCtx → TinCtx) : (s.modTin f).channels = s.channels := rfl
@[simp] theorem modTin_dripTimer (f : TinCtx → TinCtx) : (s.modTin f).dripTimer = s.dripTimer := rfl
@[simp] theorem modTin_capture (f : TinCtx → TinCtx) : (s.modTin f).capture = s.capture := rfl
@[simp] theorem modTin_scaleTimer (f : TinCtx → TinCtx) : (s.modTin f).scaleTimer = s.scaleTimer := rfl
@[simp] theorem modTin_m1 (f : TinCtx → TinCtx) : (s.modTin f).m1 = s.m1 := rfl
@[simp] theorem modTin_m2 (f : TinCtx → TinCtx) : (s.modTin f).m2 = s.m2 := rfl
@[simp] theorem modTin_lidder (f : TinCtx → TinCtx) : (s.modTin f).lidder = s.lidder := rfl
@[simp] theorem modTin_lanes (f : TinCtx → TinCtx) : (s.modTin f).lanes = s.lanes := rfl
@[simp] theorem modTin_store (f : TinCtx → TinCtx) : (s.modTin f).store = s.store := rfl
@[simp] theorem modTin_sent (f : TinCtx → TinCtx) : (s.modTin f).sent = s.sent := rfl
@[simp] theorem modTin_pending (f : TinCtx → TinCtx) : (s.modTin f).pending = s.pending := rfl

/-! ### setQueue -/

@[simp] theorem setQueue_power (q : List Handle) : (s.setQueue q).power = s.power := rfl
@[simp] theorem setQueue_guardInput (q : List Handle) : (s.setQueue q).guardInput = s.guardInput := rfl
@[simp] theorem setQueue_line (q : List Handle) : (s.setQueue q).line = s.line := rfl
@[simp] theorem setQueue_ports (q : List Handle) : (s.setQueue q).ports = s.ports := rfl
@[simp] theorem setQueue_canisters (q : List Handle) : (s.setQueue q).canisters = s.canisters := rfl
@[simp] theorem setQueue_pumps (q : List Handle) : (s.setQueue q).pumps = s.pumps := rfl
@[simp] theorem setQueue_waits (q : List Handle) : (s.setQueue q).waits = s.waits := rfl
@[simp] theorem setQueue_slots (q : List Handle) : (s.setQueue q).slots = s.slots := rfl
@[simp] theorem setQueue_classes (q : List Handle) : (s.setQueue q).classes = s.classes := rfl
@[simp] theorem setQueue_call (q : List Handle) : (s.setQueue q).call = s.call := rfl
@[simp] theorem setQueue_callTimer (q : List Handle) : (s.setQueue q).callTimer = s.callTimer := rfl
@[simp] theorem setQueue_gateOpen (q : List Handle) : (s.setQueue q).gateOpen = s.gateOpen := rfl
@[simp] theorem setQueue_station (q : List Handle) : (s.setQueue q).station = s.station := rfl
@[simp] theorem setQueue_tin (q : List Handle) : (s.setQueue q).tin = s.tin := rfl
@[simp] theorem setQueue_channels (q : List Handle) : (s.setQueue q).channels = s.channels := rfl
@[simp] theorem setQueue_dripTimer (q : List Handle) : (s.setQueue q).dripTimer = s.dripTimer := rfl
@[simp] theorem setQueue_capture (q : List Handle) : (s.setQueue q).capture = s.capture := rfl
@[simp] theorem setQueue_scaleTimer (q : List Handle) : (s.setQueue q).scaleTimer = s.scaleTimer := rfl
@[simp] theorem setQueue_m1 (q : List Handle) : (s.setQueue q).m1 = s.m1 := rfl
@[simp] theorem setQueue_m2 (q : List Handle) : (s.setQueue q).m2 = s.m2 := rfl
@[simp] theorem setQueue_lidder (q : List Handle) : (s.setQueue q).lidder = s.lidder := rfl
@[simp] theorem setQueue_lanes (q : List Handle) : (s.setQueue q).lanes = s.lanes := rfl
@[simp] theorem setQueue_store (q : List Handle) : (s.setQueue q).store = s.store := rfl
@[simp] theorem setQueue_sent (q : List Handle) : (s.setQueue q).sent = s.sent := rfl
@[simp] theorem setQueue_pending (q : List Handle) : (s.setQueue q).pending = s.pending := rfl

/-! ### storeCan -/

@[simp] theorem storeCan_power (p : Pos) : (s.storeCan p).power = s.power := rfl
@[simp] theorem storeCan_guardInput (p : Pos) : (s.storeCan p).guardInput = s.guardInput := rfl
@[simp] theorem storeCan_line (p : Pos) : (s.storeCan p).line = s.line := rfl
@[simp] theorem storeCan_ports (p : Pos) : (s.storeCan p).ports = s.ports := rfl
@[simp] theorem storeCan_canisters (p : Pos) : (s.storeCan p).canisters = s.canisters := rfl
@[simp] theorem storeCan_pumps (p : Pos) : (s.storeCan p).pumps = s.pumps := rfl
@[simp] theorem storeCan_waits (p : Pos) : (s.storeCan p).waits = s.waits := rfl
@[simp] theorem storeCan_slots (p : Pos) : (s.storeCan p).slots = s.slots := rfl
@[simp] theorem storeCan_classes (p : Pos) : (s.storeCan p).classes = s.classes := rfl
@[simp] theorem storeCan_queue (p : Pos) : (s.storeCan p).queue = s.queue := rfl
@[simp] theorem storeCan_quota (p : Pos) : (s.storeCan p).quota = s.quota := rfl
@[simp] theorem storeCan_call (p : Pos) : (s.storeCan p).call = s.call := rfl
@[simp] theorem storeCan_callTimer (p : Pos) : (s.storeCan p).callTimer = s.callTimer := rfl
@[simp] theorem storeCan_gateOpen (p : Pos) : (s.storeCan p).gateOpen = s.gateOpen := rfl
@[simp] theorem storeCan_station (p : Pos) : (s.storeCan p).station = s.station := rfl
@[simp] theorem storeCan_tin (p : Pos) : (s.storeCan p).tin = s.tin := rfl
@[simp] theorem storeCan_channels (p : Pos) : (s.storeCan p).channels = s.channels := rfl
@[simp] theorem storeCan_dripTimer (p : Pos) : (s.storeCan p).dripTimer = s.dripTimer := rfl
@[simp] theorem storeCan_capture (p : Pos) : (s.storeCan p).capture = s.capture := rfl
@[simp] theorem storeCan_scaleTimer (p : Pos) : (s.storeCan p).scaleTimer = s.scaleTimer := rfl
@[simp] theorem storeCan_m1 (p : Pos) : (s.storeCan p).m1 = s.m1 := rfl
@[simp] theorem storeCan_m2 (p : Pos) : (s.storeCan p).m2 = s.m2 := rfl
@[simp] theorem storeCan_lidder (p : Pos) : (s.storeCan p).lidder = s.lidder := rfl
@[simp] theorem storeCan_lanes (p : Pos) : (s.storeCan p).lanes = s.lanes := rfl
@[simp] theorem storeCan_sent (p : Pos) : (s.storeCan p).sent = s.sent := rfl
@[simp] theorem storeCan_pending (p : Pos) : (s.storeCan p).pending = s.pending := rfl

/-! ### stopCapture -/

@[simp] theorem stopCapture_power : s.stopCapture.power = s.power := rfl
@[simp] theorem stopCapture_guardInput : s.stopCapture.guardInput = s.guardInput := rfl
@[simp] theorem stopCapture_line : s.stopCapture.line = s.line := rfl
@[simp] theorem stopCapture_ports : s.stopCapture.ports = s.ports := rfl
@[simp] theorem stopCapture_canisters : s.stopCapture.canisters = s.canisters := rfl
@[simp] theorem stopCapture_pumps : s.stopCapture.pumps = s.pumps := rfl
@[simp] theorem stopCapture_waits : s.stopCapture.waits = s.waits := rfl
@[simp] theorem stopCapture_slots : s.stopCapture.slots = s.slots := rfl
@[simp] theorem stopCapture_classes : s.stopCapture.classes = s.classes := rfl
@[simp] theorem stopCapture_queue : s.stopCapture.queue = s.queue := rfl
@[simp] theorem stopCapture_quota : s.stopCapture.quota = s.quota := rfl
@[simp] theorem stopCapture_call : s.stopCapture.call = s.call := rfl
@[simp] theorem stopCapture_callTimer : s.stopCapture.callTimer = s.callTimer := rfl
@[simp] theorem stopCapture_gateOpen : s.stopCapture.gateOpen = s.gateOpen := rfl
@[simp] theorem stopCapture_station : s.stopCapture.station = s.station := rfl
@[simp] theorem stopCapture_tin : s.stopCapture.tin = s.tin := rfl
@[simp] theorem stopCapture_channels : s.stopCapture.channels = s.channels := rfl
@[simp] theorem stopCapture_dripTimer : s.stopCapture.dripTimer = s.dripTimer := rfl
@[simp] theorem stopCapture_m1 : s.stopCapture.m1 = s.m1 := rfl
@[simp] theorem stopCapture_m2 : s.stopCapture.m2 = s.m2 := rfl
@[simp] theorem stopCapture_lidder : s.stopCapture.lidder = s.lidder := rfl
@[simp] theorem stopCapture_lanes : s.stopCapture.lanes = s.lanes := rfl
@[simp] theorem stopCapture_store : s.stopCapture.store = s.store := rfl
@[simp] theorem stopCapture_sent : s.stopCapture.sent = s.sent := rfl
@[simp] theorem stopCapture_pending : s.stopCapture.pending = s.pending := rfl

/-! ### startTare -/

@[simp] theorem startTare_power : s.startTare.power = s.power := rfl
@[simp] theorem startTare_guardInput : s.startTare.guardInput = s.guardInput := rfl
@[simp] theorem startTare_line : s.startTare.line = s.line := rfl
@[simp] theorem startTare_ports : s.startTare.ports = s.ports := rfl
@[simp] theorem startTare_canisters : s.startTare.canisters = s.canisters := rfl
@[simp] theorem startTare_pumps : s.startTare.pumps = s.pumps := rfl
@[simp] theorem startTare_waits : s.startTare.waits = s.waits := rfl
@[simp] theorem startTare_slots : s.startTare.slots = s.slots := rfl
@[simp] theorem startTare_classes : s.startTare.classes = s.classes := rfl
@[simp] theorem startTare_queue : s.startTare.queue = s.queue := rfl
@[simp] theorem startTare_quota : s.startTare.quota = s.quota := rfl
@[simp] theorem startTare_call : s.startTare.call = s.call := rfl
@[simp] theorem startTare_callTimer : s.startTare.callTimer = s.callTimer := rfl
@[simp] theorem startTare_gateOpen : s.startTare.gateOpen = s.gateOpen := rfl
@[simp] theorem startTare_station : s.startTare.station = s.station := rfl
@[simp] theorem startTare_tin : s.startTare.tin = s.tin := rfl
@[simp] theorem startTare_channels : s.startTare.channels = s.channels := rfl
@[simp] theorem startTare_dripTimer : s.startTare.dripTimer = s.dripTimer := rfl
@[simp] theorem startTare_m1 : s.startTare.m1 = s.m1 := rfl
@[simp] theorem startTare_m2 : s.startTare.m2 = s.m2 := rfl
@[simp] theorem startTare_lidder : s.startTare.lidder = s.lidder := rfl
@[simp] theorem startTare_lanes : s.startTare.lanes = s.lanes := rfl
@[simp] theorem startTare_store : s.startTare.store = s.store := rfl
@[simp] theorem startTare_sent : s.startTare.sent = s.sent := rfl
@[simp] theorem startTare_pending : s.startTare.pending = s.pending := rfl

/-! ### startGross -/

@[simp] theorem startGross_power : s.startGross.power = s.power := rfl
@[simp] theorem startGross_guardInput : s.startGross.guardInput = s.guardInput := rfl
@[simp] theorem startGross_line : s.startGross.line = s.line := rfl
@[simp] theorem startGross_ports : s.startGross.ports = s.ports := rfl
@[simp] theorem startGross_canisters : s.startGross.canisters = s.canisters := rfl
@[simp] theorem startGross_pumps : s.startGross.pumps = s.pumps := rfl
@[simp] theorem startGross_waits : s.startGross.waits = s.waits := rfl
@[simp] theorem startGross_slots : s.startGross.slots = s.slots := rfl
@[simp] theorem startGross_classes : s.startGross.classes = s.classes := rfl
@[simp] theorem startGross_queue : s.startGross.queue = s.queue := rfl
@[simp] theorem startGross_quota : s.startGross.quota = s.quota := rfl
@[simp] theorem startGross_call : s.startGross.call = s.call := rfl
@[simp] theorem startGross_callTimer : s.startGross.callTimer = s.callTimer := rfl
@[simp] theorem startGross_gateOpen : s.startGross.gateOpen = s.gateOpen := rfl
@[simp] theorem startGross_station : s.startGross.station = s.station := rfl
@[simp] theorem startGross_tin : s.startGross.tin = s.tin := rfl
@[simp] theorem startGross_channels : s.startGross.channels = s.channels := rfl
@[simp] theorem startGross_dripTimer : s.startGross.dripTimer = s.dripTimer := rfl
@[simp] theorem startGross_m1 : s.startGross.m1 = s.m1 := rfl
@[simp] theorem startGross_m2 : s.startGross.m2 = s.m2 := rfl
@[simp] theorem startGross_lidder : s.startGross.lidder = s.lidder := rfl
@[simp] theorem startGross_lanes : s.startGross.lanes = s.lanes := rfl
@[simp] theorem startGross_store : s.startGross.store = s.store := rfl
@[simp] theorem startGross_sent : s.startGross.sent = s.sent := rfl
@[simp] theorem startGross_pending : s.startGross.pending = s.pending := rfl

/-! ### withdrawCall -/

@[simp] theorem withdrawCall_power : s.withdrawCall.power = s.power := rfl
@[simp] theorem withdrawCall_guardInput : s.withdrawCall.guardInput = s.guardInput := rfl
@[simp] theorem withdrawCall_line : s.withdrawCall.line = s.line := rfl
@[simp] theorem withdrawCall_ports : s.withdrawCall.ports = s.ports := rfl
@[simp] theorem withdrawCall_canisters : s.withdrawCall.canisters = s.canisters := rfl
@[simp] theorem withdrawCall_pumps : s.withdrawCall.pumps = s.pumps := rfl
@[simp] theorem withdrawCall_waits : s.withdrawCall.waits = s.waits := rfl
@[simp] theorem withdrawCall_slots : s.withdrawCall.slots = s.slots := rfl
@[simp] theorem withdrawCall_classes : s.withdrawCall.classes = s.classes := rfl
@[simp] theorem withdrawCall_queue : s.withdrawCall.queue = s.queue := rfl
@[simp] theorem withdrawCall_quota : s.withdrawCall.quota = s.quota := rfl
@[simp] theorem withdrawCall_gateOpen : s.withdrawCall.gateOpen = s.gateOpen := rfl
@[simp] theorem withdrawCall_tin : s.withdrawCall.tin = s.tin := rfl
@[simp] theorem withdrawCall_channels : s.withdrawCall.channels = s.channels := rfl
@[simp] theorem withdrawCall_dripTimer : s.withdrawCall.dripTimer = s.dripTimer := rfl
@[simp] theorem withdrawCall_capture : s.withdrawCall.capture = s.capture := rfl
@[simp] theorem withdrawCall_scaleTimer : s.withdrawCall.scaleTimer = s.scaleTimer := rfl
@[simp] theorem withdrawCall_m1 : s.withdrawCall.m1 = s.m1 := rfl
@[simp] theorem withdrawCall_m2 : s.withdrawCall.m2 = s.m2 := rfl
@[simp] theorem withdrawCall_lidder : s.withdrawCall.lidder = s.lidder := rfl
@[simp] theorem withdrawCall_lanes : s.withdrawCall.lanes = s.lanes := rfl
@[simp] theorem withdrawCall_store : s.withdrawCall.store = s.store := rfl
@[simp] theorem withdrawCall_sent : s.withdrawCall.sent = s.sent := rfl
@[simp] theorem withdrawCall_pending : s.withdrawCall.pending = s.pending := rfl

/-! ### rotate -/

@[simp] theorem rotate_power (h : Handle) : (s.rotate h).power = s.power := rfl
@[simp] theorem rotate_guardInput (h : Handle) : (s.rotate h).guardInput = s.guardInput := rfl
@[simp] theorem rotate_line (h : Handle) : (s.rotate h).line = s.line := rfl
@[simp] theorem rotate_ports (h : Handle) : (s.rotate h).ports = s.ports := rfl
@[simp] theorem rotate_canisters (h : Handle) : (s.rotate h).canisters = s.canisters := rfl
@[simp] theorem rotate_pumps (h : Handle) : (s.rotate h).pumps = s.pumps := rfl
@[simp] theorem rotate_waits (h : Handle) : (s.rotate h).waits = s.waits := rfl
@[simp] theorem rotate_slots (h : Handle) : (s.rotate h).slots = s.slots := rfl
@[simp] theorem rotate_classes (h : Handle) : (s.rotate h).classes = s.classes := rfl
@[simp] theorem rotate_call (h : Handle) : (s.rotate h).call = s.call := rfl
@[simp] theorem rotate_callTimer (h : Handle) : (s.rotate h).callTimer = s.callTimer := rfl
@[simp] theorem rotate_gateOpen (h : Handle) : (s.rotate h).gateOpen = s.gateOpen := rfl
@[simp] theorem rotate_station (h : Handle) : (s.rotate h).station = s.station := rfl
@[simp] theorem rotate_tin (h : Handle) : (s.rotate h).tin = s.tin := rfl
@[simp] theorem rotate_channels (h : Handle) : (s.rotate h).channels = s.channels := rfl
@[simp] theorem rotate_dripTimer (h : Handle) : (s.rotate h).dripTimer = s.dripTimer := rfl
@[simp] theorem rotate_capture (h : Handle) : (s.rotate h).capture = s.capture := rfl
@[simp] theorem rotate_scaleTimer (h : Handle) : (s.rotate h).scaleTimer = s.scaleTimer := rfl
@[simp] theorem rotate_m1 (h : Handle) : (s.rotate h).m1 = s.m1 := rfl
@[simp] theorem rotate_m2 (h : Handle) : (s.rotate h).m2 = s.m2 := rfl
@[simp] theorem rotate_lidder (h : Handle) : (s.rotate h).lidder = s.lidder := rfl
@[simp] theorem rotate_lanes (h : Handle) : (s.rotate h).lanes = s.lanes := rfl
@[simp] theorem rotate_store (h : Handle) : (s.rotate h).store = s.store := rfl
@[simp] theorem rotate_sent (h : Handle) : (s.rotate h).sent = s.sent := rfl
@[simp] theorem rotate_pending (h : Handle) : (s.rotate h).pending = s.pending := rfl

/-! ### setChanState -/

@[simp] theorem setChanState_power (d : ChanId) (st : ChanState) : (s.setChanState d st).power = s.power := rfl
@[simp] theorem setChanState_guardInput (d : ChanId) (st : ChanState) : (s.setChanState d st).guardInput = s.guardInput := rfl
@[simp] theorem setChanState_line (d : ChanId) (st : ChanState) : (s.setChanState d st).line = s.line := rfl
@[simp] theorem setChanState_ports (d : ChanId) (st : ChanState) : (s.setChanState d st).ports = s.ports := rfl
@[simp] theorem setChanState_canisters (d : ChanId) (st : ChanState) : (s.setChanState d st).canisters = s.canisters := rfl
@[simp] theorem setChanState_pumps (d : ChanId) (st : ChanState) : (s.setChanState d st).pumps = s.pumps := rfl
@[simp] theorem setChanState_waits (d : ChanId) (st : ChanState) : (s.setChanState d st).waits = s.waits := rfl
@[simp] theorem setChanState_slots (d : ChanId) (st : ChanState) : (s.setChanState d st).slots = s.slots := rfl
@[simp] theorem setChanState_classes (d : ChanId) (st : ChanState) : (s.setChanState d st).classes = s.classes := rfl
@[simp] theorem setChanState_queue (d : ChanId) (st : ChanState) : (s.setChanState d st).queue = s.queue := rfl
@[simp] theorem setChanState_quota (d : ChanId) (st : ChanState) : (s.setChanState d st).quota = s.quota := rfl
@[simp] theorem setChanState_call (d : ChanId) (st : ChanState) : (s.setChanState d st).call = s.call := rfl
@[simp] theorem setChanState_callTimer (d : ChanId) (st : ChanState) : (s.setChanState d st).callTimer = s.callTimer := rfl
@[simp] theorem setChanState_gateOpen (d : ChanId) (st : ChanState) : (s.setChanState d st).gateOpen = s.gateOpen := rfl
@[simp] theorem setChanState_station (d : ChanId) (st : ChanState) : (s.setChanState d st).station = s.station := rfl
@[simp] theorem setChanState_tin (d : ChanId) (st : ChanState) : (s.setChanState d st).tin = s.tin := rfl
@[simp] theorem setChanState_dripTimer (d : ChanId) (st : ChanState) : (s.setChanState d st).dripTimer = s.dripTimer := rfl
@[simp] theorem setChanState_capture (d : ChanId) (st : ChanState) : (s.setChanState d st).capture = s.capture := rfl
@[simp] theorem setChanState_scaleTimer (d : ChanId) (st : ChanState) : (s.setChanState d st).scaleTimer = s.scaleTimer := rfl
@[simp] theorem setChanState_m1 (d : ChanId) (st : ChanState) : (s.setChanState d st).m1 = s.m1 := rfl
@[simp] theorem setChanState_m2 (d : ChanId) (st : ChanState) : (s.setChanState d st).m2 = s.m2 := rfl
@[simp] theorem setChanState_lidder (d : ChanId) (st : ChanState) : (s.setChanState d st).lidder = s.lidder := rfl
@[simp] theorem setChanState_lanes (d : ChanId) (st : ChanState) : (s.setChanState d st).lanes = s.lanes := rfl
@[simp] theorem setChanState_store (d : ChanId) (st : ChanState) : (s.setChanState d st).store = s.store := rfl
@[simp] theorem setChanState_sent (d : ChanId) (st : ChanState) : (s.setChanState d st).sent = s.sent := rfl
@[simp] theorem setChanState_pending (d : ChanId) (st : ChanState) : (s.setChanState d st).pending = s.pending := rfl

/-! ### setMixer -/

@[simp] theorem setMixer_power (m : MixerId) (v : Mixer) : (s.setMixer m v).power = s.power := by cases m <;> rfl
@[simp] theorem setMixer_guardInput (m : MixerId) (v : Mixer) : (s.setMixer m v).guardInput = s.guardInput := by cases m <;> rfl
@[simp] theorem setMixer_line (m : MixerId) (v : Mixer) : (s.setMixer m v).line = s.line := by cases m <;> rfl
@[simp] theorem setMixer_ports (m : MixerId) (v : Mixer) : (s.setMixer m v).ports = s.ports := by cases m <;> rfl
@[simp] theorem setMixer_canisters (m : MixerId) (v : Mixer) : (s.setMixer m v).canisters = s.canisters := by cases m <;> rfl
@[simp] theorem setMixer_pumps (m : MixerId) (v : Mixer) : (s.setMixer m v).pumps = s.pumps := by cases m <;> rfl
@[simp] theorem setMixer_waits (m : MixerId) (v : Mixer) : (s.setMixer m v).waits = s.waits := by cases m <;> rfl
@[simp] theorem setMixer_slots (m : MixerId) (v : Mixer) : (s.setMixer m v).slots = s.slots := by cases m <;> rfl
@[simp] theorem setMixer_classes (m : MixerId) (v : Mixer) : (s.setMixer m v).classes = s.classes := by cases m <;> rfl
@[simp] theorem setMixer_queue (m : MixerId) (v : Mixer) : (s.setMixer m v).queue = s.queue := by cases m <;> rfl
@[simp] theorem setMixer_quota (m : MixerId) (v : Mixer) : (s.setMixer m v).quota = s.quota := by cases m <;> rfl
@[simp] theorem setMixer_call (m : MixerId) (v : Mixer) : (s.setMixer m v).call = s.call := by cases m <;> rfl
@[simp] theorem setMixer_callTimer (m : MixerId) (v : Mixer) : (s.setMixer m v).callTimer = s.callTimer := by cases m <;> rfl
@[simp] theorem setMixer_gateOpen (m : MixerId) (v : Mixer) : (s.setMixer m v).gateOpen = s.gateOpen := by cases m <;> rfl
@[simp] theorem setMixer_station (m : MixerId) (v : Mixer) : (s.setMixer m v).station = s.station := by cases m <;> rfl
@[simp] theorem setMixer_tin (m : MixerId) (v : Mixer) : (s.setMixer m v).tin = s.tin := by cases m <;> rfl
@[simp] theorem setMixer_channels (m : MixerId) (v : Mixer) : (s.setMixer m v).channels = s.channels := by cases m <;> rfl
@[simp] theorem setMixer_dripTimer (m : MixerId) (v : Mixer) : (s.setMixer m v).dripTimer = s.dripTimer := by cases m <;> rfl
@[simp] theorem setMixer_capture (m : MixerId) (v : Mixer) : (s.setMixer m v).capture = s.capture := by cases m <;> rfl
@[simp] theorem setMixer_scaleTimer (m : MixerId) (v : Mixer) : (s.setMixer m v).scaleTimer = s.scaleTimer := by cases m <;> rfl
@[simp] theorem setMixer_lidder (m : MixerId) (v : Mixer) : (s.setMixer m v).lidder = s.lidder := by cases m <;> rfl
@[simp] theorem setMixer_lanes (m : MixerId) (v : Mixer) : (s.setMixer m v).lanes = s.lanes := by cases m <;> rfl
@[simp] theorem setMixer_store (m : MixerId) (v : Mixer) : (s.setMixer m v).store = s.store := by cases m <;> rfl
@[simp] theorem setMixer_sent (m : MixerId) (v : Mixer) : (s.setMixer m v).sent = s.sent := by cases m <;> rfl
@[simp] theorem setMixer_pending (m : MixerId) (v : Mixer) : (s.setMixer m v).pending = s.pending := by cases m <;> rfl

end Sys2Proof.Machine
end

