-- ==== Sys2Proof/Laws/Records.lean ====
section
/-! SUPPORT. Reading a record after an update of it or of its neighbour. -/

namespace Sys2Proof.Machine

variable (s : State)

/-! ### Vectors -/

@[simp] theorem mapVec_getElem {α β : Type} {n : Nat} (f : α → β) (v : Vector α n) (i : Nat) (h : i < n) :
    (mapVec f v)[i] = f v[i] := by simp [mapVec]

@[simp] theorem mapVec_getFin {α β : Type} {n : Nat} (f : α → β) (v : Vector α n) (i : Fin n) :
    (mapVec f v)[i] = f v[i] := by simp

theorem portIdx_inj {p q : Port} (h : (portIdx p).val = (portIdx q).val) : p = q := by
  cases p <;> cases q <;> first | rfl | (exact absurd h (by decide))

theorem portIdx_ne {p q : Port} (h : p ≠ q) : (portIdx p).val ≠ (portIdx q).val := fun e => h (portIdx_inj e)

/-! ### Ports -/

@[simp] theorem port_setPort_same (p : Port) (v : PortState) : (s.setPort p v).port p = v := by
  simp [State.port, State.setPort]

theorem port_setPort_other {p q : Port} (h : p ≠ q) (v : PortState) : (s.setPort p v).port q = s.port q := by
  simp [State.port, State.setPort, portIdx_ne h]

theorem port_setPort (p q : Port) (v : PortState) :
    (s.setPort p v).port q = if p = q then v else s.port q := by
  by_cases h : p = q
  · subst h; simp
  · simp [h, port_setPort_other]

/-- A predicate of every port survives an update of one that keeps it there. -/
theorem port_setPort_all {P : PortState → Prop} {s : State} {p : Port} {v : PortState} (hs : ∀ q, P (s.port q))
    (hv : P v) (q : Port) : P ((s.setPort p v).port q) := by
  rw [port_setPort]; split
  · exact hv
  · exact hs q

/-! ### Canisters, pumps, channels, slots, wait lists -/

@[simp] theorem can_setCan_same (p : Pos) (c : Canister) : (s.setCan p c).can p = c := by
  simp [State.can, State.setCan]

theorem can_setCan (p q : Pos) (c : Canister) : (s.setCan p c).can q = if p = q then c else s.can q := by
  simp [State.can, State.setCan, Vector.getElem_set, Fin.ext_iff]

theorem can_setCan_other {p q : Pos} (h : p ≠ q) (c : Canister) : (s.setCan p c).can q = s.can q := by
  simp [can_setCan, h]

@[simp] theorem pump_setPump_same (p : Pos) (v : Pump) : (s.setPump p v).pump p = v := by
  simp [State.pump, State.setPump]

theorem pump_setPump (p q : Pos) (v : Pump) : (s.setPump p v).pump q = if p = q then v else s.pump q := by
  simp [State.pump, State.setPump, Vector.getElem_set, Fin.ext_iff]

theorem pump_setPump_other {p q : Pos} (h : p ≠ q) (v : Pump) : (s.setPump p v).pump q = s.pump q := by
  simp [pump_setPump, h]

@[simp] theorem chan_setChan_same (d : ChanId) (c : Channel) : (s.setChan d c).chan d = c := by
  simp [State.chan, State.setChan]

theorem chan_setChan (d e : ChanId) (c : Channel) : (s.setChan d c).chan e = if d = e then c else s.chan e := by
  simp [State.chan, State.setChan, Vector.getElem_set, Fin.ext_iff]

@[simp] theorem slot_setSlot_same (i : Fin 24) (v : Slot) : (s.setSlot i v).slot i = v := by
  simp [State.slot, State.setSlot]

theorem slot_setSlot (i k : Fin 24) (v : Slot) : (s.setSlot i v).slot k = if i = k then v else s.slot k := by
  simp [State.slot, State.setSlot, Vector.getElem_set, Fin.ext_iff]

@[simp] theorem waitList_setWait_same (p : Pos) (l : List Handle) : (s.setWait p l).waitList p = l := by
  simp [State.waitList, State.setWait]

theorem waitList_setWait (p q : Pos) (l : List Handle) :
    (s.setWait p l).waitList q = if p = q then l else s.waitList q := by
  simp [State.waitList, State.setWait, Vector.getElem_set, Fin.ext_iff]

/-! ### Records of a state whose vectors are those of another -/

theorem port_congr {s t : State} (h : t.ports = s.ports) (p : Port) : t.port p = s.port p := by
  simp [State.port, h]

theorem can_congr {s t : State} (h : t.canisters = s.canisters) (p : Pos) : t.can p = s.can p := by
  simp [State.can, h]

theorem pump_congr {s t : State} (h : t.pumps = s.pumps) (p : Pos) : t.pump p = s.pump p := by
  simp [State.pump, h]

theorem slot_congr {s t : State} (h : t.slots = s.slots) (i : Fin 24) : t.slot i = s.slot i := by
  simp [State.slot, h]

theorem chan_congr {s t : State} (h : t.channels = s.channels) (d : ChanId) : t.chan d = s.chan d := by
  simp [State.chan, h]

@[simp] theorem can_setPort (p : Port) (v : PortState) (q : Pos) : (s.setPort p v).can q = s.can q := rfl
@[simp] theorem pump_setPort (p : Port) (v : PortState) (q : Pos) : (s.setPort p v).pump q = s.pump q := rfl
@[simp] theorem slot_setPort (p : Port) (v : PortState) (i : Fin 24) : (s.setPort p v).slot i = s.slot i := rfl
@[simp] theorem chan_setPort (p : Port) (v : PortState) (d : ChanId) : (s.setPort p v).chan d = s.chan d := rfl
@[simp] theorem waitList_setPort (p : Port) (v : PortState) (q : Pos) :
    (s.setPort p v).waitList q = s.waitList q := rfl
@[simp] theorem job?_setPort (p : Port) (v : PortState) (h : Handle) : (s.setPort p v).job? h = s.job? h := rfl
@[simp] theorem jobs_setPort (p : Port) (v : PortState) : (s.setPort p v).jobs = s.jobs := rfl
@[simp] theorem mixer_setPort (p : Port) (v : PortState) (m : MixerId) : (s.setPort p v).mixer m = s.mixer m := by
  cases m <;> rfl
@[simp] theorem halted_setPort (p : Port) (v : PortState) : (s.setPort p v).halted = s.halted := rfl
@[simp] theorem active_setPort (p : Port) (v : PortState) : (s.setPort p v).active = s.active := rfl

@[simp] theorem pump_setCan (p : Pos) (c : Canister) (q : Pos) : (s.setCan p c).pump q = s.pump q := rfl
@[simp] theorem port_setCan (p : Pos) (c : Canister) (q : Port) : (s.setCan p c).port q = s.port q := rfl
@[simp] theorem slot_setCan (p : Pos) (c : Canister) (i : Fin 24) : (s.setCan p c).slot i = s.slot i := rfl
@[simp] theorem can_setPump (p : Pos) (v : Pump) (q : Pos) : (s.setPump p v).can q = s.can q := rfl
@[simp] theorem port_setPump (p : Pos) (v : Pump) (q : Port) : (s.setPump p v).port q = s.port q := rfl
@[simp] theorem slot_setPump (p : Pos) (v : Pump) (i : Fin 24) : (s.setPump p v).slot i = s.slot i := rfl
@[simp] theorem chan_setPump (p : Pos) (v : Pump) (d : ChanId) : (s.setPump p v).chan d = s.chan d := rfl
@[simp] theorem can_setSlot (i : Fin 24) (v : Slot) (q : Pos) : (s.setSlot i v).can q = s.can q := rfl
@[simp] theorem pump_setSlot (i : Fin 24) (v : Slot) (q : Pos) : (s.setSlot i v).pump q = s.pump q := rfl
@[simp] theorem port_setSlot (i : Fin 24) (v : Slot) (q : Port) : (s.setSlot i v).port q = s.port q := rfl

/-! ### Jobs -/

theorem job?_eq_some {s : State} {h : Handle} {j : Job} (hj : s.job? h = some j) :
    s.slot h.slot = { gen := h.gen, job := some j } := by
  unfold State.job? at hj
  split at hj
  next hg => cases hs : s.slot h.slot; simp_all
  · cases hj

theorem job?_of_slot {s : State} {h : Handle} {j : Job} (hs : s.slot h.slot = { gen := h.gen, job := some j }) :
    s.job? h = some j := by simp [State.job?, hs]

/-- What `modJob` does to the slots: the named job's slot takes the changed job, every other slot stays. -/
theorem slot_modJob (h : Handle) (f : Job → Job) (i : Fin 24) :
    (s.modJob h f).slot i =
      match s.job? h with
      | some j => if h.slot = i then { gen := h.gen, job := some (f j) } else s.slot i
      | none => s.slot i := by
  unfold State.modJob
  cases s.job? h with
  | none => rfl
  | some j => exact slot_setSlot s h.slot i _

theorem job?_modJob_same {s : State} {h : Handle} {j : Job} (hj : s.job? h = some j) (f : Job → Job) :
    (s.modJob h f).job? h = some (f j) := by
  have : (s.modJob h f).slot h.slot = { gen := h.gen, job := some (f j) } := by simp [slot_modJob, hj]
  exact job?_of_slot this

end Sys2Proof.Machine
end

