-- ==== Sys2Proof/Laws/Works.lean ====
section
/-! SUPPORT. What the work of the part's blocks within one event can do to the state, said once: notices arrive
at ports, jobs and canisters change by their own rules, and the rest of the listed state stays. Every
shared operation below the meanings is such work, and the laws of the device follow from that. -/

namespace Sys2Proof.Machine

/-! ### The relation -/

/-- The notice side of a port controller keeps its bounds (R166, R168). -/
structure PortState.NoticesOk (ps : PortState) : Prop where
  notices : ps.notices.length ≤ 16
  attention : ps.attention = !ps.notices.isEmpty

/-- Work at a port: only notices arrive. -/
structure PortState.Keeps (a b : PortState) : Prop where
  rx : b.rx = a.rx
  gap : b.gap = a.gap
  hold : b.hold = a.hold
  out : b.out = a.out
  notices : a.NoticesOk → b.NoticesOk

/-- A canister's laws together, for a part that runs. -/
def Canister.Sound (c : Canister) : Prop := c.Ok ∧ c.StirrerOk

/-- Work at a canister: its laws are kept, and it stays installed or vacant with its stroke capacity. -/
structure Canister.Keeps (a b : Canister) : Prop where
  sound : a.Sound → b.Sound
  stroke : b.kept.stroke = a.kept.stroke
  installed : b.kept.installed = a.kept.installed

/-- Work at a job slot: the generation stays, and the job stays itself. -/
def Slot.Keeps (a b : Slot) : Prop :=
  b.gen = a.gen ∧
    match a.job, b.job with
    | none, none => True
    | some j, some k => j.Keeps k
    | _, _ => False

/-- Work of the blocks within an event. -/
structure Works (s t : State) : Prop where
  power : t.power = s.power
  guardInput : t.guardInput = s.guardInput
  pending : t.pending = s.pending
  classes : t.classes = s.classes
  storeClasses : t.store.classes = s.store.classes
  storeSettings : t.store.settings = s.store.settings
  settings : t.line.settings = s.line.settings
  flag : s.line.guard.isSome = (s.line.mode == .halted) → t.line.guard.isSome = (t.line.mode == .halted)
  ports : ∀ p, (s.port p).Keeps (t.port p)
  slots : ∀ i, (s.slot i).Keeps (t.slot i)
  lanes : ∀ x, s.lanes.count x ≤ laneCapacity x → t.lanes.count x ≤ laneCapacity x
  queue : s.queue.Nodup → t.queue.Nodup
  cans : ∀ p, (s.can p).Keeps (t.can p)
  pumps : ∀ p, (s.pump p).charge ≤ (s.can p).kept.stroke → (t.pump p).charge ≤ (t.can p).kept.stroke

/-! ### It is reflexive and transitive -/

theorem Component.Keeps.refl (c : Component) : c.Keeps c := ⟨rfl, rfl, rfl, rfl, rfl, rfl, rfl, rfl, id⟩

theorem Component.Keeps.trans {a b c : Component} (h : a.Keeps b) (k : b.Keeps c) : a.Keeps c :=
  ⟨k.pos.trans h.pos, k.code.trans h.code, k.amount.trans h.amount, k.scale.trans h.scale, k.a.trans h.a,
    k.exact.trans h.exact, k.qSnap.trans h.qSnap, k.substep.trans h.substep, fun x => k.lotBreak (h.lotBreak x)⟩

theorem Component.keeps_all_refl (l : List Component) : List.Forall₂ Component.Keeps l l := by
  induction l with
  | nil => exact .nil
  | cons c cs ih => exact .cons (.refl c) ih

theorem Component.keeps_all_trans {a b c : List Component} (h : List.Forall₂ Component.Keeps a b)
    (k : List.Forall₂ Component.Keeps b c) : List.Forall₂ Component.Keeps a c := by
  induction h generalizing c with
  | nil => cases k; exact .nil
  | cons hx _ ih => cases k with | cons kx ks => exact .cons (hx.trans kx) (ih ks)

/-- A change of a component record that leaves S(c) as well. -/
def Component.Same (c d : Component) : Prop := c.Keeps d ∧ d.cum = c.cum

theorem Component.Same.refl (c : Component) : c.Same c := ⟨.refl c, rfl⟩

theorem Component.same_all_refl (l : List Component) : List.Forall₂ Component.Same l l := by
  induction l with
  | nil => exact .nil
  | cons c cs ih => exact .cons (.refl c) ih

theorem Component.same_map {f : Component → Component} (hf : ∀ c : Component, c.Same (f c)) (l : List Component) :
    List.Forall₂ Component.Same l (l.map f) := by
  induction l with
  | nil => exact .nil
  | cons c cs ih => exact .cons (hf c) ih

/-- Components changed one by one keep what each keeps. -/
theorem Component.keeps_map {f : Component → Component} (hf : ∀ c : Component, c.Keeps (f c)) (l : List Component) :
    List.Forall₂ Component.Keeps l (l.map f) := by
  induction l with
  | nil => exact .nil
  | cons c cs ih => exact .cons (hf c) ih

theorem Job.Keeps.refl (j : Job) : j.Keeps j :=
  ⟨rfl, rfl, rfl, rfl, rfl, rfl, rfl, rfl, rfl, rfl, rfl, rfl, Component.keeps_all_refl _, le_refl _, rfl, id⟩

theorem Job.Keeps.trans {a b c : Job} (h : a.Keeps b) (k : b.Keeps c) : a.Keeps c :=
  ⟨k.owner.trans h.owner, k.orderRef.trans h.orderRef, k.colour.trans h.colour, k.base.trans h.base,
    k.cls.trans h.cls, k.vref.trans h.vref, k.n.trans h.n, k.dSubstep.trans h.dSubstep,
    k.dWeighOut.trans h.dWeighOut, k.dWeighNone.trans h.dWeighNone, k.dLotBreak.trans h.dLotBreak,
    k.shortage.trans h.shortage, Component.keeps_all_trans h.comps k.comps, h.counted.trans k.counted,
    k.results.trans h.results, fun x => k.cum (h.cum x)⟩

theorem PortState.Keeps.refl (a : PortState) : a.Keeps a := ⟨rfl, rfl, rfl, rfl, id⟩

theorem PortState.Keeps.trans {a b c : PortState} (h : a.Keeps b) (k : b.Keeps c) : a.Keeps c :=
  ⟨k.rx.trans h.rx, k.gap.trans h.gap, k.hold.trans h.hold, k.out.trans h.out, fun x => k.notices (h.notices x)⟩

theorem Canister.Keeps.refl (a : Canister) : a.Keeps a := ⟨id, rfl, rfl⟩

theorem Canister.Keeps.trans {a b c : Canister} (h : a.Keeps b) (k : b.Keeps c) : a.Keeps c :=
  ⟨fun x => k.sound (h.sound x), k.stroke.trans h.stroke, k.installed.trans h.installed⟩

theorem Slot.Keeps.refl (a : Slot) : a.Keeps a := by
  refine ⟨rfl, ?_⟩
  cases a.job with
  | none => trivial
  | some j => exact .refl j

theorem Slot.Keeps.trans {a b c : Slot} (h : a.Keeps b) (k : b.Keeps c) : a.Keeps c := by
  obtain ⟨hg, hj⟩ := h
  obtain ⟨kg, kj⟩ := k
  refine ⟨kg.trans hg, ?_⟩
  revert hj kj
  cases a.job <;> cases b.job <;> cases c.job <;> simp
  exact fun x y => x.trans y

theorem Works.refl (s : State) : Works s s :=
  ⟨rfl, rfl, rfl, rfl, rfl, rfl, rfl, id, fun _ => .refl _, fun _ => .refl _, fun _ => id, id, fun _ => .refl _,
    fun _ => id⟩

theorem Works.trans {a b c : State} (h : Works a b) (k : Works b c) : Works a c :=
  ⟨k.power.trans h.power, k.guardInput.trans h.guardInput, k.pending.trans h.pending,
    k.classes.trans h.classes, k.storeClasses.trans h.storeClasses, k.storeSettings.trans h.storeSettings,
    k.settings.trans h.settings, fun x => k.flag (h.flag x), fun p => (h.ports p).trans (k.ports p),
    fun i => (h.slots i).trans (k.slots i), fun x y => k.lanes x (h.lanes x y), fun x => k.queue (h.queue x),
    fun p => (h.cans p).trans (k.cans p), fun p x => k.pumps p (h.pumps p x)⟩

/-- An update of fields the relation does not list is work. -/
theorem Works.of_eq {s t : State} (hpower : t.power = s.power) (hguard : t.guardInput = s.guardInput)
    (hpending : t.pending = s.pending) (hclasses : t.classes = s.classes)
    (hstore : t.store.classes = s.store.classes) (hset : t.store.settings = s.store.settings)
    (hline : t.line = s.line) (hports : t.ports = s.ports) (hslots : t.slots = s.slots)
    (hlanes : t.lanes = s.lanes) (hqueue : t.queue = s.queue) (hcans : t.canisters = s.canisters)
    (hpumps : t.pumps = s.pumps) : Works s t := by
  refine ⟨hpower, hguard, hpending, hclasses, hstore, hset, by rw [hline], by rw [hline]; exact id, ?_, ?_, ?_,
    by rw [hqueue]; exact id, ?_, ?_⟩
  · intro p; rw [port_congr hports]; exact .refl _
  · intro i; rw [slot_congr hslots]; exact .refl _
  · intro x; rw [hlanes]; exact id
  · intro p; rw [can_congr hcans]; exact .refl _
  · intro p; rw [can_congr hcans, pump_congr hpumps]; exact id

/-! ### The primitive kinds of work -/

/-- An update of one canister that keeps its laws. -/
theorem works_setCan (s : State) {p : Pos} {c : Canister} (h : (s.can p).Keeps c) : Works s (s.setCan p c) := by
  refine ⟨rfl, rfl, rfl, rfl, rfl, rfl, rfl, id, fun _ => .refl _, fun _ => .refl _, fun _ => id, id, ?_, ?_⟩
  · intro q
    rw [can_setCan]
    split
    · next e => exact e ▸ h
    · exact .refl _
  · intro q hq
    rw [can_setCan]
    split
    · next e => subst e; rw [h.stroke]; exact hq
    · exact hq

/-- An update of one pump record whose piston charge stays within the stroke capacity. -/
theorem works_setPump (s : State) {p : Pos} {v : Pump}
    (h : (s.pump p).charge ≤ (s.can p).kept.stroke → v.charge ≤ (s.can p).kept.stroke) :
    Works s (s.setPump p v) := by
  refine ⟨rfl, rfl, rfl, rfl, rfl, rfl, rfl, id, fun _ => .refl _, fun _ => .refl _, fun _ => id, id,
    fun _ => .refl _, ?_⟩
  intro q hq
  rw [pump_setPump]
  split
  · next e => subst e; exact h hq
  · exact hq

/-- A change of a job that keeps what the job keeps. -/
theorem works_modJob (s : State) {h : Handle} {f : Job → Job} (hf : ∀ j, s.job? h = some j → j.Keeps (f j)) :
    Works s (s.modJob h f) := by
  unfold State.modJob
  cases hj : s.job? h with
  | none => exact .refl s
  | some j =>
    refine ⟨rfl, rfl, rfl, rfl, rfl, rfl, rfl, id, fun _ => .refl _, ?_, fun _ => id, id, fun _ => .refl _,
      fun _ => id⟩
    intro i
    rw [slot_setSlot]
    split
    · next e =>
      subst e
      rw [job?_eq_some hj]
      exact ⟨rfl, hf j hj⟩
    · exact .refl _

/-- The queue becomes another without duplicates, and the quota count anything. -/
theorem works_queue (s : State) {t : State} (h : s.queue.Nodup → t.queue.Nodup)
    (e : t = { s with queue := t.queue, quota := t.quota }) : Works s t := by
  rw [e]
  exact ⟨rfl, rfl, rfl, rfl, rfl, rfl, rfl, id, fun _ => .refl _, fun _ => .refl _, fun _ => id, h,
    fun _ => .refl _, fun _ => id⟩

/-! ### Notices -/

theorem dropOldest_length_le (l : List Notice) (lvl : Nat) : (dropOldest lvl l).length ≤ l.length :=
  List.length_eraseP_le

theorem lowestLevel_foldl (l : List Notice) (m : Nat) :
    l.foldl (fun m n => min m n.level) m = m ∨ ∃ n ∈ l, n.level = l.foldl (fun m n => min m n.level) m := by
  induction l generalizing m with
  | nil => exact .inl rfl
  | cons a l ih =>
    rcases ih (min m a.level) with h | ⟨n, hn, e⟩
    · rcases Nat.le_total m a.level with hm | hm
      · left; simp only [List.foldl_cons]; rw [h, min_eq_left hm]
      · right; exact ⟨a, by simp, by simp only [List.foldl_cons]; rw [h, min_eq_right hm]⟩
    · right; exact ⟨n, by simp [hn], by simpa using e⟩

theorem Notice.level_le (n : Notice) : n.level ≤ 3 := by cases n <;> simp [Notice.level]

theorem lowestLevel_le (l : List Notice) : lowestLevel l ≤ 3 := by
  unfold lowestLevel
  generalize hm : (3 : Nat) = m
  have : ∀ (l : List Notice) (m : Nat), l.foldl (fun m n => min m n.level) m ≤ m := by
    intro l
    induction l with
    | nil => intro m; exact le_refl _
    | cons a l ih => intro m; exact (ih _).trans (min_le_left _ _)
  exact this l m

/-- A lowest level below the highest possible is the level of a notice held. -/
theorem exists_lowest {l : List Notice} (h : lowestLevel l < 3) : ∃ n ∈ l, n.level = lowestLevel l := by
  rcases lowestLevel_foldl l 3 with e | e
  · exact absurd (show lowestLevel l = 3 from e) (by omega)
  · exact e

/-- Dropping the oldest notice of the lowest level makes room for one more. -/
theorem dropLowest_length {l : List Notice} (h : lowestLevel l < 3) :
    (dropOldest (lowestLevel l) l).length + 1 = l.length := by
  obtain ⟨n, hn, e⟩ := exists_lowest h
  have := List.length_eraseP_of_mem (p := fun n => n.level == lowestLevel l) hn (by simp [e])
  have hp : 0 < l.length := List.length_pos_of_mem hn
  simp only [dropOldest]
  omega

/-- An arriving notice touches the notice queue, the lost mark and the attention line alone, and keeps their
bounds (R166 to R168). -/
theorem arrive_keeps (ps : PortState) (n : Notice) : ps.Keeps (ps.arrive n) := by
  unfold PortState.arrive
  split
  · next h =>
    refine ⟨rfl, rfl, rfl, rfl, fun _ => ⟨?_, ?_⟩⟩
    · simp only [Config.maxNotices] at h
      simp only [List.length_append, List.length_singleton]; omega
    · simp
  · next hfull =>
    split
    · next hl =>
      refine ⟨rfl, rfl, rfl, rfl, fun k => ⟨?_, ?_⟩⟩
      · have := dropLowest_length (l := ps.notices) (lt_of_lt_of_le hl n.level_le)
        have := k.notices
        simp only [List.length_append, List.length_singleton]; omega
      · have hne : ps.notices ≠ [] := by
          intro e; simp [e, Config.maxNotices] at hfull
        have h1 := k.attention
        have h2 : ps.notices.isEmpty = false := by simpa using hne
        rw [h2] at h1
        show ps.attention = !(dropOldest (lowestLevel ps.notices) ps.notices ++ [n]).isEmpty
        rw [h1]
        cases dropOldest (lowestLevel ps.notices) ps.notices <;> rfl
    · exact ⟨rfl, rfl, rfl, rfl, fun k => ⟨k.notices, k.attention⟩⟩

/-- A replacement of one port by one with notices arrived. -/
theorem works_setPort (s : State) {p : Port} {v : PortState} (h : (s.port p).Keeps v) :
    Works s (s.setPort p v) := by
  refine ⟨rfl, rfl, rfl, rfl, rfl, rfl, rfl, id, ?_, fun _ => .refl _, fun _ => id, id, fun _ => .refl _,
    fun _ => id⟩
  intro q
  rw [port_setPort]
  split
  · next e => exact e ▸ h
  · exact .refl _

theorem works_notify (s : State) (p : Port) (n : Notice) : Works s (s.notify p n) :=
  works_setPort s (arrive_keeps _ n)

theorem replaceNewest_length (f : Notice → Bool) (n : Notice) (l : List Notice) :
    (replaceNewest f n l).length = l.length := by
  induction l with
  | nil => rfl
  | cons x l ih =>
    unfold replaceNewest
    split
    · rfl
    · simp [ih]

theorem replaceNewest_isEmpty (f : Notice → Bool) (n : Notice) (l : List Notice) :
    (replaceNewest f n l).isEmpty = l.isEmpty := by
  rw [Bool.eq_iff_iff]
  simp only [List.isEmpty_iff_length_eq_zero, replaceNewest_length]

/-- A restated notice takes the place of another, so the queue keeps its length (R70). -/
theorem works_restateJob (s before : State) (h : Handle) (c : Cause) : Works s (s.restateJob before h c) := by
  unfold State.restateJob
  split
  · split
    · refine works_setPort s ⟨rfl, rfl, rfl, rfl, fun hk => ⟨?_, ?_⟩⟩
      · simpa [replaceNewest_length] using hk.notices
      · simpa [replaceNewest_isEmpty] using hk.attention
    · exact .refl s
  · exact .refl s

theorem works_notifyEach (ps : List Port) (n : Notice) (s : State) : Works s (s.notifyEach ps n) := by
  unfold State.notifyEach
  induction ps generalizing s with
  | nil => exact .refl s
  | cons p ps ih => exact (works_notify s p n).trans (ih _)

theorem works_notifyAll (s : State) (n : Notice) : Works s (s.notifyAll n) := works_notifyEach _ n s

theorem works_notifyJob (s : State) (h : Handle) (c : Cause) : Works s (s.notifyJob h c) := by
  unfold State.notifyJob
  split
  · exact works_notify s _ _
  · exact .refl s

end Sys2Proof.Machine
end

