-- ==== Sys2Proof/Laws/StockLaws.lean ====
section
/-! SUPPORT. The canister table's operations and the line controller's are work of the blocks (Laws/Works). -/

namespace Sys2Proof.Machine

/-! ### Canister states -/

theorem bne_vacant {st : CanState} (h : st ≠ .vacant) : (st != .vacant) = true := by simpa using h

theorem toReady_keeps {c : Canister} (hv : c.state ≠ .vacant) (hs : c.state ≠ .settled) : c.Keeps c.toReady := by
  refine ⟨fun h => ?_, rfl, rfl⟩
  obtain ⟨⟨hi, _, _, hd, hl, hc, hr⟩, _⟩ := h
  refine ⟨⟨?_, rfl, rfl, fun e => absurd (hd e) hs, hl, hc, hr⟩, rfl⟩
  exact hi.trans (bne_vacant hv)

theorem toStirring_keeps {c : Canister} (hv : c.state ≠ .vacant) (hs : c.state ≠ .settled) :
    c.Keeps c.toStirring := by
  refine ⟨fun h => ?_, rfl, rfl⟩
  obtain ⟨⟨hi, _, _, hd, hl, hc, hr⟩, _⟩ := h
  refine ⟨⟨?_, rfl, rfl, fun e => absurd (hd e) hs, hl, hc, hr⟩, rfl⟩
  exact hi.trans (bne_vacant hv)

theorem toSettled_keeps {c : Canister} (hv : c.state ≠ .vacant) (d : Bool) :
    c.Keeps { c.toSettled with demand := d } := by
  refine ⟨fun h => ?_, rfl, rfl⟩
  obtain ⟨⟨hi, _, _, hd, hl, hc, hr⟩, _⟩ := h
  refine ⟨⟨?_, rfl, rfl, fun _ => rfl, hl, hc, hr⟩, rfl⟩
  exact hi.trans (bne_vacant hv)

theorem toSettled_keeps' {c : Canister} (hv : c.state ≠ .vacant) : c.Keeps c.toSettled := by
  refine ⟨fun h => ?_, rfl, rfl⟩
  obtain ⟨⟨hi, _, _, hd, hl, hc, hr⟩, _⟩ := h
  refine ⟨⟨?_, rfl, rfl, fun _ => rfl, hl, hc, hr⟩, rfl⟩
  exact hi.trans (bne_vacant hv)

theorem toRecirc_keeps {c : Canister} (hv : c.state ≠ .vacant) : c.Keeps c.toRecirc := by
  refine ⟨fun h => ?_, rfl, rfl⟩
  obtain ⟨⟨hi, _, _, hd, hl, hc, hr⟩, _⟩ := h
  refine ⟨⟨?_, rfl, rfl, fun e => absurd e (by simp [Canister.toRecirc]), hl, hc, hr⟩, rfl⟩
  exact hi.trans (bne_vacant hv)

theorem toLocked_keeps {c : Canister} (hv : c.state ≠ .vacant) : c.Keeps c.toLocked := by
  refine ⟨fun h => ?_, rfl, rfl⟩
  obtain ⟨⟨hi, _, _, hd, hl, hc, hr⟩, _⟩ := h
  refine ⟨⟨?_, rfl, rfl, fun e => absurd e (by simp [Canister.toLocked]), hl, hc, hr⟩, rfl⟩
  exact hi.trans (bne_vacant hv)

/-- A change of the latch alone. -/
theorem latch_keeps (c : Canister) (b : Bool) : c.Keeps { c with latch := b } :=
  ⟨fun h => ⟨⟨h.1.installed, h.1.settle, h.1.keep, h.1.demand, h.1.level, h.1.count, h.1.declared⟩, h.2⟩, rfl, rfl⟩

/-- A demand set on a SETTLED canister. -/
theorem demand_keeps {c : Canister} (hs : c.state = .settled) : c.Keeps { c with demand := true } :=
  ⟨fun h => ⟨⟨h.1.installed, h.1.settle, h.1.keep, fun _ => hs, h.1.level, h.1.count, h.1.declared⟩, h.2⟩, rfl, rfl⟩

/-- A settle timer restarted in READY. -/
theorem restart_keeps {c : Canister} (hs : c.state = .ready) (n : Nat) :
    c.Keeps { c with settleTimer := some n } :=
  ⟨fun h => ⟨⟨h.1.installed, by simp [hs], h.1.keep, h.1.demand, h.1.level, h.1.count, h.1.declared⟩, h.2⟩, rfl, rfl⟩

/-- The declared fields of a canister record, in the order of R21. -/
def CanRecord.fields (r : CanRecord) : List Nat :=
  [r.capacity, r.heel, r.lowMark, r.q, r.density, r.stroke, r.pulse, r.dwell, r.settleLimit, r.recircTime, r.keepStir]

/-- Records with the same declared fields are in range together. -/
theorem declared_of_eq {c k : CanRecord} (h : k.fields = c.fields) : c.Declared → k.Declared := by
  simp only [CanRecord.fields, List.cons.injEq, and_true] at h
  obtain ⟨h1, h2, h3, h4, h5, h6, h7, h8, h9, h10, h11⟩ := h
  intro ⟨a1, a2, a3, a4, a5, a6, a7, a8, a9, a10, a11⟩
  exact ⟨h1 ▸ a1, h1 ▸ h2 ▸ a2, h3 ▸ a3, h4 ▸ a4, h5 ▸ a5, h6 ▸ a6, h7 ▸ a7, h8 ▸ a8, h9 ▸ a9, h10 ▸ a10, h11 ▸ a11⟩

/-- New kept fields of the same canister within the laws of level and count. -/
theorem kept_keeps {c : Canister} {k : CanRecord} (hi : k.installed = c.kept.installed)
    (hs : k.stroke = c.kept.stroke) (hl : c.kept.level ≤ c.kept.capacity → k.level ≤ k.capacity)
    (hc : k.count < 65536) (hr : c.kept.Declared → k.Declared) : c.Keeps { c with kept := k } :=
  ⟨fun h => ⟨⟨hi.trans h.1.installed, h.1.settle, h.1.keep, h.1.demand, hl h.1.level, hc,
    fun e => hr (h.1.declared (hi ▸ e))⟩, h.2⟩, hs, hi⟩

theorem nextCount_lt (n : Nat) : nextCount n < 65536 := Nat.mod_lt _ (by decide)

theorem rearm_keeps (c : Canister) : c.Keeps c.rearm := latch_keeps c _

theorem afterDebit_keeps (c : Canister) : c.Keeps c.afterDebit := by
  unfold Canister.afterDebit
  split
  · next h => exact restart_keeps h _
  · next h => exact toReady_keeps (by simp [h]) (by simp [h])
  · exact .refl c

theorem canAtGuard_keeps (c : Canister) : c.Keeps c.atGuard := by
  unfold Canister.atGuard
  split
  · next h => exact toSettled_keeps (by simp [h]) true
  · next h => exact toReady_keeps (by simp [h]) (by simp [h])
  · exact .refl c

/-! ### Canister operations -/

theorem works_send (s : State) (c : Sent) : Works s (s.send c) :=
  .of_eq rfl rfl rfl rfl rfl rfl rfl rfl rfl rfl rfl rfl rfl

theorem works_storeCan (s : State) (p : Pos) : Works s (s.storeCan p) :=
  .of_eq rfl rfl rfl rfl rfl rfl rfl rfl rfl rfl rfl rfl rfl

theorem works_examineLow (s : State) (p : Pos) : Works s (s.examineLow p) := by
  unfold State.examineLow
  dsimp only
  split
  · exact (works_setCan s (latch_keeps _ false)).trans (works_notify _ _ _)
  · exact .refl s

theorem works_examineRecirc (s : State) (p : Pos) : Works s (s.examineRecirc p) := by
  unfold State.examineRecirc
  dsimp only
  split
  · next h =>
    simp only [Bool.and_eq_true, beq_iff_eq] at h
    refine ((works_setCan s (toRecirc_keeps (by simp [h.1.1.2]))).trans (works_setPump _ ?_)).trans
      (works_send _ _)
    intro hq
    simpa using hq
  · exact .refl s

theorem works_askRecirc (s : State) (p : Pos) : Works s (s.askRecirc p) := by
  unfold State.askRecirc
  dsimp only
  split
  · next h =>
    simp only [beq_iff_eq] at h
    exact (works_setCan s (demand_keeps h)).trans (works_examineRecirc _ p)
  · exact .refl s

theorem works_debit (s : State) (p : Pos) (k : Nat) : Works s (s.debit p k) := by
  unfold State.debit
  split
  · exact .refl s
  · dsimp only
    refine (((works_setCan s ?_).trans (works_storeCan _ p)).trans (works_examineLow _ p)).trans
      (works_setCan _ (afterDebit_keeps _))
    exact kept_keeps rfl rfl (fun h => le_trans (Nat.sub_le _ _) h) (nextCount_lt _) (declared_of_eq rfl)

/-! ### Line controller -/

theorem works_setMode (s : State) {m : LineMode} (h : m ≠ .halted) : Works s (s.setMode m) := by
  unfold State.setMode
  refine Works.trans ?_ (works_notifyAll _ _)
  exact ⟨rfl, rfl, rfl, rfl, rfl, rfl, rfl, fun _ => by simp [h], fun _ => .refl _, fun _ => .refl _,
    fun _ => id, id, fun _ => .refl _, fun _ => id⟩

theorem works_examinePark (s : State) : Works s s.examinePark := by
  unfold State.examinePark
  split
  · exact works_setMode s (by decide)
  · exact .refl s

theorem works_wake (s : State) : Works s s.wake := by
  unfold State.wake
  split
  · exact works_setMode s (by decide)
  · exact .refl s

theorem works_wakeIf (s : State) (b : Bool) : Works s (s.wakeIf b) := by
  cases b
  · exact .refl s
  · exact works_wake s

/-! ### Queue -/

theorem works_setQueue (s : State) {q : List Handle} (h : s.queue.Nodup → q.Nodup) : Works s (s.setQueue q) :=
  works_queue s h rfl

theorem works_joinQueue (s : State) (h : Handle) : Works s (s.joinQueue h) := by
  unfold State.joinQueue
  split
  · exact .refl s
  · next hc =>
    refine works_setQueue s fun hq => ?_
    have : h ∉ s.queue := by simpa using hc
    rw [List.nodup_append]
    simp only [List.nodup_cons, List.not_mem_nil, not_false_eq_true, List.nodup_nil, and_self, List.mem_cons,
      or_false, ne_eq, forall_eq, true_and]
    exact ⟨hq, fun a ha e => this (e ▸ ha)⟩

theorem works_leaveQueue (s : State) (h : Handle) : Works s (s.leaveQueue h) :=
  works_setQueue s fun hq => hq.filter _

/-- A handle moved to the tail of a queue without duplicates. -/
theorem tail_nodup {l : List Handle} (h : Handle) (hl : l.Nodup) : (l.filter (· != h) ++ [h]).Nodup := by
  rw [List.nodup_append]
  refine ⟨hl.filter _, List.nodup_singleton h, ?_⟩
  intro a ha b hb
  simp only [List.mem_filter, bne_iff_ne] at ha
  simp only [List.mem_singleton] at hb
  exact hb ▸ ha.2

theorem works_rotate (s : State) (h : Handle) : Works s (s.rotate h) := works_queue s (tail_nodup h) rfl

end Sys2Proof.Machine
end

