-- ==== Sys2Proof/Laws/LineLaws.lean ====
section
/-! SUPPORT. The operations of the reservation unit, the mixers, the lidder, the lanes, the scheduler, the
dispense head and the weigh unit are work of the blocks (Laws/Works). -/

namespace Sys2Proof.Machine

/-! ### Jobs -/

theorem mem_of_forall₂ {α β : Type} {R : α → β → Prop} {l : List α} {m : List β} (h : List.Forall₂ R l m) {b : β}
    (hb : b ∈ m) : ∃ a ∈ l, R a b := by
  induction h with
  | nil => cases hb
  | cons hx _ ih =>
    rcases List.mem_cons.1 hb with rfl | hb
    · exact ⟨_, List.mem_cons_self, hx⟩
    · obtain ⟨a, ha, hr⟩ := ih hb
      exact ⟨a, List.mem_cons_of_mem _ ha, hr⟩

/-- A change of the fields a job does not keep. -/
theorem Job.keeps_of (j k : Job) (hc : List.Forall₂ Component.Same j.comps k.comps) (hr : k.results.length = j.results.length)
    (e : k = { j with comps := k.comps, state := k.state, started := k.started
                      delivered := k.delivered, expiries := k.expiries, pendingRe := k.pendingRe
                      cause := k.cause, results := k.results }) : j.Keeps k := by
  rw [e]
  refine ⟨rfl, rfl, rfl, rfl, rfl, rfl, rfl, rfl, rfl, rfl, rfl, rfl, hc.imp fun _ _ h => h.1, le_refl _, hr, ?_⟩
  intro hj d hd
  obtain ⟨c, hcm, hk, hs⟩ := mem_of_forall₂ hc hd
  show d.cum = cumSteps j.counted d.exact (d.qSnap * j.vref)
  rw [hs, hj c hcm, hk.exact, hk.qSnap]

theorem addReserved_keeps (l : List Nat) (cs : List Component) :
    List.Forall₂ Component.Same cs (addReserved l cs) := by
  induction cs generalizing l with
  | nil => cases l <;> exact .nil
  | cons c cs ih =>
    cases l with
    | nil => exact Component.same_all_refl _
    | cons k ks => exact .cons ⟨⟨rfl, rfl, rfl, rfl, rfl, rfl, rfl, rfl, id⟩, rfl⟩ (ih ks)

theorem keeps_modify {f : Component → Component} (hf : ∀ c : Component, c.Same (f c)) (l : List Component)
    (i : Nat) : List.Forall₂ Component.Same l (l.modify i f) := by
  induction l generalizing i with
  | nil => cases i <;> exact .nil
  | cons c cs ih =>
    cases i with
    | zero => exact .cons (hf c) (Component.same_all_refl _)
    | succ i => exact .cons (.refl c) (ih i)

theorem reserved_keeps (c : Component) (k : Nat) : c.Same { c with reserved := k } :=
  ⟨⟨rfl, rfl, rfl, rfl, rfl, rfl, rfl, rfl, id⟩, rfl⟩

theorem setReserved_keeps (j : Job) (i k : Nat) : j.Keeps (j.setReserved i k) :=
  j.keeps_of _ (keeps_modify (fun c => reserved_keeps c k) _ _) rfl rfl

theorem markLot_keeps (s : State) (c : Component) : c.Same (s.markLot c) := by
  unfold State.markLot
  split
  · exact ⟨⟨rfl, rfl, rfl, rfl, rfl, rfl, rfl, rfl, fun _ => rfl⟩, rfl⟩
  · exact .refl c

theorem keepBursts_keeps (s : State) (h : Handle) (i : Nat) (cs : List Component) :
    List.Forall₂ Component.Same cs (s.keepBursts h i cs) := by
  induction cs generalizing i with
  | nil => exact .nil
  | cons c cs ih => exact .cons (reserved_keeps c _) (ih (i + 1))

theorem advance_keeps (j : Job) : j.Keeps j.advance := by
  refine ⟨rfl, rfl, rfl, rfl, rfl, rfl, rfl, rfl, rfl, rfl, rfl, rfl, Component.keeps_map (fun c => ?_) _,
    Nat.le_succ _, rfl, fun _ d hd => ?_⟩
  · exact ⟨rfl, rfl, rfl, rfl, rfl, rfl, rfl, rfl, id⟩
  · obtain ⟨c, _, rfl⟩ := List.mem_map.1 hd
    rfl

/-- A change that leaves the components and the count of a job. -/
theorem plain_keeps (j k : Job) (hr : k.results.length = j.results.length)
    (e : k = { j with state := k.state, started := k.started, delivered := k.delivered
                      expiries := k.expiries, pendingRe := k.pendingRe, cause := k.cause
                      results := k.results }) : j.Keeps k := by
  rw [e]
  exact ⟨rfl, rfl, rfl, rfl, rfl, rfl, rfl, rfl, rfl, rfl, rfl, rfl, Component.keeps_all_refl _, le_refl _, hr, id⟩

/-! ### Reservation unit -/

theorem works_setWait (s : State) (p : Pos) (l : List Handle) : Works s (s.setWait p l) :=
  .of_eq rfl rfl rfl rfl rfl rfl rfl rfl rfl rfl rfl rfl rfl

theorem works_leaveWaits (s : State) (h : Handle) : Works s (s.leaveWaits h) :=
  .of_eq rfl rfl rfl rfl rfl rfl rfl rfl rfl rfl rfl rfl rfl

theorem works_notifyWait (s : State) (p : Pos) (h : Handle) (k : Nat) : Works s (s.notifyWait p h k) :=
  works_notify s _ _

theorem works_grant (s : State) (p : Pos) (h : Handle) : Works s (s.grant p h) := by
  unfold State.grant
  dsimp only
  refine (((works_modJob s fun j _ => ?_).trans (works_setWait _ _ _)).trans (works_joinQueue _ _)).trans
    (works_notifyJob _ _ _)
  exact j.keeps_of _ (addReserved_keeps _ _) rfl rfl

theorem works_moveWait (s : State) (p y : Pos) (h : Handle) (r : Bool) (k : Nat) :
    Works s (s.moveWait p y h r k) := by
  unfold State.moveWait
  dsimp only
  exact ((works_setWait s _ _).trans (works_setWait _ _ _)).trans (works_notifyWait _ _ _ _)

theorem works_walkFrom (p : Pos) (l : List Handle) (b : Bool) (s : State) :
    Works s (State.walkFrom p l b s).1 := by
  induction l generalizing b s with
  | nil => exact .refl s
  | cons h rest ih =>
    unfold State.walkFrom
    split
    · exact .refl s
    · split
      · exact .refl s
      · split
        · exact (works_grant s p h).trans (ih _ _)
        · exact (works_moveWait s _ _ _ _ _).trans (ih _ _)

theorem works_walk (s : State) (p : Pos) : Works s (s.walk p) :=
  (works_walkFrom p _ _ s).trans (works_wakeIf _ _)

theorem works_walkAll (s : State) (ps : List Pos) : Works s (s.walkAll ps) := by
  unfold State.walkAll
  induction ps generalizing s with
  | nil => exact .refl s
  | cons p ps ih => exact (works_walk s p).trans (ih _)

theorem works_reserveReport (s : State) (h : Handle) (i : Nat) (p : Pos) (k : Nat) :
    Works s (s.reserveReport h i p k) := by
  unfold State.reserveReport
  split
  · exact .refl s
  · split
    · dsimp only
      split
      · exact (works_modJob s fun j _ => setReserved_keeps j _ _).trans (works_walk _ _)
      · exact works_modJob s fun j _ => setReserved_keeps j _ _
    · exact works_modJob s fun j _ => setReserved_keeps j _ _

theorem works_failAttempt (s : State) (t : TinCtx) : Works s (s.failAttempt t) := by
  unfold State.failAttempt
  split
  · exact .refl s
  · split
    · exact .refl s
    · refine (works_modJob s fun j _ => ?_).trans (works_joinQueue _ _)
      exact plain_keeps j _ (by simp) rfl

theorem works_suspend (s : State) (h : Handle) (c : Cause) : Works s (s.suspend h c) := by
  unfold State.suspend
  refine ((works_modJob s fun j _ => ?_).trans (works_notifyJob _ _ _)).trans (works_examinePark _)
  exact plain_keeps j _ rfl rfl

theorem works_retryReserve (s : State) (h : Handle) : Works s (s.retryReserve h).1 := by
  unfold State.retryReserve
  split
  · exact .refl s
  · split
    · exact .refl s
    · split
      · exact works_modJob s fun j _ => j.keeps_of _ (addReserved_keeps _ _) rfl rfl
      · dsimp only
        refine ((((works_modJob s fun j _ => ?_).trans (works_leaveQueue _ _)).trans
          (works_setWait _ _ _)).trans (works_notifyWait _ _ _ _)).trans (works_examinePark _)
        exact plain_keeps j _ rfl rfl

theorem works_spoilAttempt (s : State) (t : TinCtx) : Works s (s.spoilAttempt t) := by
  unfold State.spoilAttempt
  dsimp only
  split
  · exact ((works_failAttempt s t).trans (works_retryReserve _ _)).trans (works_notifyJob _ _ _)
  · exact (works_failAttempt s t).trans (works_retryReserve _ _)

theorem works_releaseClaim (s : State) (h : Handle) : Works s (s.releaseClaim h) := by
  unfold State.releaseClaim
  refine (works_leaveWaits s h).trans (works_modJob _ fun j _ => ?_)
  exact j.keeps_of _ (keepBursts_keeps s h 0 _) rfl rfl

theorem works_calmJob (s : State) (h : Handle) : Works s (s.calmJob h) := by
  unfold State.calmJob
  split
  · exact .refl s
  · split
    · exact works_modJob s fun j _ => plain_keeps j _ rfl rfl
    · exact .refl s

/-! ### Mixers, lidder and lanes -/

theorem works_setMixer (s : State) (m : MixerId) (v : Mixer) : Works s (s.setMixer m v) := by
  cases m <;> exact .of_eq rfl rfl rfl rfl rfl rfl rfl rfl rfl rfl rfl rfl rfl

theorem works_modTin (s : State) (f : TinCtx → TinCtx) : Works s (s.modTin f) :=
  .of_eq rfl rfl rfl rfl rfl rfl rfl rfl rfl rfl rfl rfl rfl

theorem works_stationLeaves (s : State) : Works s s.stationLeaves := by
  unfold State.stationLeaves
  refine Works.trans ?_ (works_examinePark _)
  exact .of_eq rfl rfl rfl rfl rfl rfl rfl rfl rfl rfl rfl rfl rfl

theorem works_startTransfer (s : State) (m : MixerId) (t : TinCtx) : Works s (s.startTransfer m t) :=
  (works_setMixer s _ _).trans (works_send _ _)

theorem works_examineTransfer (s : State) : Works s s.examineTransfer := by
  unfold State.examineTransfer
  split
  · exact .refl s
  · split
    · split
      · exact works_startTransfer s _ _
      · split
        · exact works_startTransfer s _ _
        · exact .refl s
    · exact .refl s

theorem works_releaseSource (s : State) (src : Source) : Works s (s.releaseSource src) := by
  cases src
  · exact (works_setMixer s _ _).trans (works_examineTransfer _)
  · exact (works_setMixer s _ _).trans (works_examineTransfer _)
  · exact works_stationLeaves s

theorem works_examineLidder (s : State) : Works s s.examineLidder := by
  unfold State.examineLidder
  split
  · split
    · exact .refl s
    · split
      · exact .refl s
      · split
        · exact .refl s
        · refine (Works.trans ?_ (works_send _ _)).trans (works_releaseSource _ _)
          exact .of_eq rfl rfl rfl rfl rfl rfl rfl rfl rfl rfl rfl rfl rfl
  · exact .refl s

theorem works_joinClaim (s : State) (src : Source) : Works s (s.joinClaim src) := by
  unfold State.joinClaim
  dsimp only
  refine Works.trans ?_ (works_examineLidder _)
  exact .of_eq rfl rfl rfl rfl rfl rfl rfl rfl rfl rfl rfl rfl rfl

theorem works_handoffNormal (s : State) : Works s s.handoffNormal := by
  unfold State.handoffNormal
  refine Works.trans ?_ (works_examineTransfer _)
  exact .of_eq rfl rfl rfl rfl rfl rfl rfl rfl rfl rfl rfl rfl rfl

theorem works_handoffReject (s : State) : Works s s.handoffReject := by
  unfold State.handoffReject
  refine Works.trans ?_ (works_joinClaim _ _)
  exact .of_eq rfl rfl rfl rfl rfl rfl rfl rfl rfl rfl rfl rfl rfl

theorem works_deliver (s : State) (t : TinCtx) (x : Lane) : Works s (s.deliver t x) := by
  unfold State.deliver
  split
  · exact .refl s
  · refine (works_modJob s fun j _ => ?_).trans (works_notify _ _ _)
    exact plain_keeps j _ (by simp) rfl

theorem works_contextEnded (s : State) (h : Handle) : Works s (s.contextEnded h) := by
  unfold State.contextEnded
  split
  · exact .refl s
  · split
    · refine (works_modJob s fun j _ => ?_).trans (works_notifyJob _ _ _)
      exact plain_keeps j _ rfl rfl
    · split
      · refine (works_modJob s fun j _ => ?_).trans (works_notifyJob _ _ _)
        exact plain_keeps j _ rfl rfl
      · exact works_calmJob s h

theorem count_setCount (l : Lanes) (x y : Lane) (n : Nat) :
    (l.setCount x n).count y = if x = y then n else l.count y := by cases x <;> cases y <;> rfl

/-- A change of one lane count within its capacity, with any change of the lidder. -/
theorem works_lanes (s : State) {x : Lane} {n : Nat} (l : Lidder)
    (h : s.lanes.count x ≤ laneCapacity x → n ≤ laneCapacity x) :
    Works s { s with lanes := s.lanes.setCount x n, lidder := l } := by
  refine ⟨rfl, rfl, rfl, rfl, rfl, rfl, rfl, id, fun _ => .refl _, fun _ => .refl _, ?_, id, fun _ => .refl _,
    fun _ => id⟩
  intro y hy
  show (s.lanes.setCount x n).count y ≤ laneCapacity y
  rw [count_setCount]
  split
  · next e => subst e; exact h hy
  · exact hy

/-- A placement is made only when the destination lane has room (R140, R142). -/
theorem works_placeTin (s : State) {x : Lane} (hx : s.lidder.dest = some x) (hr : s.laneRoom x = true) :
    Works s s.placeTin := by
  unfold State.placeTin
  rw [hx]
  split
  · next t y _ hy =>
    cases hy
    have hroom : s.lanes.count x + 1 ≤ laneCapacity x := by simpa [State.laneRoom] using hr
    dsimp only
    refine Works.trans (Works.trans (Works.trans ?_ (works_contextEnded _ _)) (works_examinePark _))
      (works_examineLidder _)
    refine Works.trans (works_lanes s { s.lidder with
      state := .idle, tin := none, label := none, dest := none, cmdOut := false } fun _ => hroom) ?_
    split
    · exact works_deliver _ _ _
    · exact .refl _
  · exact .refl s

theorem works_examineLane (s : State) : Works s s.examineLane := by
  unfold State.examineLane
  split
  · next x hx =>
    split
    · next h =>
      simp only [Bool.and_eq_true] at h
      exact works_placeTin s hx h.2
    · exact .refl s
  · exact .refl s

theorem works_remix (s : State) (m : MixerId) : Works s (s.remix m) := by
  unfold State.remix
  split
  · exact works_setMixer s _ _
  · exact .refl s

theorem works_relid (s : State) : Works s s.relid := by
  unfold State.relid
  split
  · split
    · split
      · exact .refl s
      · refine Works.trans ?_ (works_send _ _)
        exact .of_eq rfl rfl rfl rfl rfl rfl rfl rfl rfl rfl rfl rfl rfl
    · exact .refl s
  · exact works_examineLane s
  · exact works_examineLidder s

/-! ### Scheduler -/

theorem works_applyQuota (s : State) (h : Handle) : Works s (s.applyQuota h) := by
  unfold State.applyQuota
  extract_lets left
  by_cases hl : left = 0
  · rw [if_pos hl]; exact works_leaveQueue s h
  · rw [if_neg hl]
    split
    · split
      · exact works_queue s (tail_nodup h) rfl
      · exact works_queue s id rfl
    · exact .refl s

theorem works_askAll (l : List Nat) (cs : List Component) (s : State) : Works s (s.askAll l cs) := by
  induction l generalizing cs s with
  | nil => unfold State.askAll; exact .refl s
  | cons k ks ih =>
    cases cs with
    | nil => exact .refl s
    | cons c cs =>
      unfold State.askAll
      refine Works.trans ?_ (ih _ _)
      split
      · exact .refl s
      · exact works_askRecirc s _

theorem works_makeCall (s : State) (h : Handle) (j : Job) : Works s (s.makeCall h j) := by
  unfold State.makeCall
  dsimp only
  refine ((((Works.trans ?_ (works_notify _ _ _)).trans (works_askAll _ _ _)).trans
    (works_modJob _ fun j _ => ?_))).trans (works_applyQuota _ _)
  · exact .of_eq rfl rfl rfl rfl rfl rfl rfl rfl rfl rfl rfl rfl rfl
  · split
    · exact plain_keeps j _ rfl rfl
    · exact .refl j

theorem works_lotStop (s before : State) (h : Handle) : Works s (s.lotStop before h) := by
  unfold State.lotStop
  have h1 : Works s (s.modJob h fun j => { j with state := .suspended, cause := some .lotStop }) :=
    works_modJob s fun j _ => plain_keeps j _ rfl rfl
  refine (h1.trans ?_).trans (works_examinePark _)
  split
  · exact works_restateJob _ _ _ _
  · exact works_notifyJob _ _ _

theorem works_selectFrom (before : State) (l : List Handle) (s : State) :
    Works s (State.selectFrom before l s) := by
  induction l generalizing s with
  | nil => exact .refl s
  | cons h rest ih =>
    unfold State.selectFrom
    split
    · exact ih s
    · next j hj =>
      split
      · split
        · split
          · dsimp only
            refine (works_modJob s fun k hk => ?_).trans (works_makeCall _ _ _)
            rw [hj] at hk
            cases hk
            refine j.keeps_of _ (Component.same_map (fun c => ?_) _) rfl rfl
            split
            · exact markLot_keeps s c
            · exact .refl c
          · exact (works_lotStop s _ _).trans (ih _)
        · exact works_makeCall s _ _
      · exact ih s

theorem works_selectAfter (s before : State) : Works s (s.selectAfter before) := by
  unfold State.selectAfter
  split
  · exact works_selectFrom _ _ s
  · exact .refl s

theorem works_select (s : State) : Works s s.select := works_selectAfter s s

theorem works_withdrawCall (s : State) : Works s s.withdrawCall :=
  .of_eq rfl rfl rfl rfl rfl rfl rfl rfl rfl rfl rfl rfl rfl

/-! ### Dispense head -/

theorem works_setChan (s : State) (d : ChanId) (c : Channel) : Works s (s.setChan d c) :=
  .of_eq rfl rfl rfl rfl rfl rfl rfl rfl rfl rfl rfl rfl rfl

theorem works_freeChans (s : State) : Works s s.freeChans :=
  .of_eq rfl rfl rfl rfl rfl rfl rfl rfl rfl rfl rfl rfl rfl

theorem works_setChanState (s : State) (d : ChanId) (st : ChanState) : Works s (s.setChanState d st) :=
  works_setChan s _ _

theorem works_sendCharge (s : State) (d : ChanId) : Works s (s.sendCharge d) := by
  unfold State.sendCharge
  dsimp only
  refine Works.trans (Works.trans (works_setPump s ?_) (works_setChan _ _ _)) (works_send _ _)
  exact fun h => h

theorem works_sendBurst (s : State) (d : ChanId) : Works s (s.sendBurst d) := by
  unfold State.sendBurst
  dsimp only
  refine Works.trans (Works.trans (works_setPump s ?_) (works_setChan _ _ _)) (works_send _ _)
  exact fun h => h

theorem works_startOnFit (s : State) (d : ChanId) : Works s (s.startOnFit d) := by
  unfold State.startOnFit
  split
  · exact works_setChanState s _ _
  · split
    · exact works_sendCharge s d
    · exact works_sendBurst s d
  · exact .refl s
  · exact .refl s

theorem works_startCheck (s : State) (d : ChanId) : Works s (s.startCheck d) := by
  unfold State.startCheck
  split
  · exact .refl s
  · split
    · exact works_setChanState s _ _
    · exact works_setChan s _ _
    · split
      · exact .refl s
      · split
        · exact (works_setChanState s _ _).trans (works_askRecirc _ _)
        · exact works_setChanState s _ _
        · exact works_startOnFit s d
        · exact works_startOnFit s d
        · exact .refl s
        · exact .refl s

/-- A fold of work over a list is work. -/
theorem works_foldl {α : Type} {f : State → α → State} (hf : ∀ s a, Works s (f s a)) (l : List α) (s : State) :
    Works s (l.foldl f s) := by
  induction l generalizing s with
  | nil => exact .refl s
  | cons a l ih => exact (hf s a).trans (ih _)

theorem works_resumeRecirc (s : State) (p : Pos) : Works s (s.resumeRecirc p) :=
  works_foldl (fun s d => by
    split
    · exact works_startCheck s d
    · exact .refl s) _ s

theorem works_resumeCharge (s : State) (p : Pos) : Works s (s.resumeCharge p) :=
  works_foldl (fun s d => by
    split
    · exact works_startCheck s d
    · exact .refl s) _ s

theorem works_assignTo (s : State) (d : ChanId) : Works s (s.assignTo d) := by
  unfold State.assignTo
  split
  · split
    · exact .refl s
    · split
      · exact .refl s
      · exact (works_setChan s _ _).trans (works_startCheck _ _)
  · exact .refl s

theorem works_assignAll (s : State) : Works s s.assignAll :=
  works_foldl (fun s d => by
    split
    · exact works_assignTo s d
    · exact .refl s) _ s

theorem works_endDispensing (s : State) : Works s s.endDispensing := by
  unfold State.endDispensing
  split
  · exact .refl s
  · split
    · split
      · exact .of_eq rfl rfl rfl rfl rfl rfl rfl rfl rfl rfl rfl rfl rfl
      · exact (works_freeChans s).trans (works_handoffReject _)
    · exact .refl s

theorem works_startTare (s : State) : Works s s.startTare :=
  .of_eq rfl rfl rfl rfl rfl rfl rfl rfl rfl rfl rfl rfl rfl

theorem works_startGross (s : State) : Works s s.startGross :=
  .of_eq rfl rfl rfl rfl rfl rfl rfl rfl rfl rfl rfl rfl rfl

theorem works_stopCapture (s : State) : Works s s.stopCapture :=
  .of_eq rfl rfl rfl rfl rfl rfl rfl rfl rfl rfl rfl rfl rfl

theorem works_keepTin (s : State) : Works s s.keepTin := by
  unfold State.keepTin
  dsimp only
  split <;> exact .of_eq rfl rfl rfl rfl rfl rfl rfl rfl rfl rfl rfl rfl rfl

theorem works_spoilTin (s : State) (t : TinCtx) : Works s (s.spoilTin t) := by
  unfold State.spoilTin
  exact (((works_freeChans s).trans (works_modTin _ _)).trans (works_handoffReject _)).trans
    (works_spoilAttempt _ _)

theorem works_settleGuard (s : State) : Works s s.settleGuard := by
  unfold State.settleGuard
  split
  · exact .refl s
  · split
    · split
      · exact works_spoilTin s _
      · exact works_keepTin s
    · exact .refl s

theorem works_channelDone (s : State) (d : ChanId) : Works s (s.channelDone d) :=
  ((works_setChanState s _ _).trans (works_assignTo _ _)).trans (works_endDispensing _)

theorem works_channelNext (s : State) (d : ChanId) : Works s (s.channelNext d) := by
  unfold State.channelNext
  split
  · exact .refl s
  · split
    · exact (works_setChanState s _ _).trans (works_endDispensing _)
    · exact (works_setChan s _ _).trans (works_settleGuard _)
    · split
      · exact works_channelDone s d
      · split
        · exact works_setChan s _ _
        · exact works_startCheck s d

theorem works_burstReport (s : State) (d : ChanId) (k : Nat) : Works s (s.burstReport d k) := by
  unfold State.burstReport
  dsimp only
  refine Works.trans (Works.trans ?_ (works_examineRecirc _ _)) (works_channelNext _ _)
  refine Works.trans (b := ((s.setPump (s.chan d).pos
      { charge := (s.pump (s.chan d).pos).charge - k, state := .idle }).setChan d
    { s.chan d with remaining := (s.chan d).remaining - k, burst := none }).modTin
      (fun t => { t with dispensed := t.dispensed.modify (s.chan d).comp (· + k) }) |>.debit (s.chan d).pos k)
    ?_ ?_
  · exact (((works_setPump s fun h => le_trans (Nat.sub_le _ _) h).trans (works_setChan _ _ _)).trans
      (works_modTin _ _)).trans (works_debit _ _ _)
  · split
    · exact works_reserveReport _ _ _ _ _
    · exact .refl _

theorem works_pumpEnds (s : State) (p : Pos) {n : Nat}
    (h : (s.pump p).charge ≤ (s.can p).kept.stroke → n ≤ (s.can p).kept.stroke) : Works s (s.pumpEnds p n) :=
  (works_setPump s h).trans (works_examineRecirc _ _)

theorem works_takeBurst (s : State) (p : Pos) (k : Nat) : Works s (s.takeBurst p k) := by
  unfold State.takeBurst
  split
  · exact works_burstReport s _ _
  · exact works_pumpEnds s p id

theorem works_cancelTin (s : State) : Works s s.cancelTin := by
  unfold State.cancelTin
  dsimp only
  refine Works.trans ((works_stopCapture s).trans (works_modTin _ fun t =>
    { t with route := .reject, word := some .reject, stop := .cancel })) ?_
  split
  · refine Works.trans ?_ (works_endDispensing _)
    exact .of_eq rfl rfl rfl rfl rfl rfl rfl rfl rfl rfl rfl rfl rfl
  · refine Works.trans ?_ (works_handoffReject _)
    exact .of_eq rfl rfl rfl rfl rfl rfl rfl rfl rfl rfl rfl rfl rfl

theorem works_guardTin (s : State) : Works s s.guardTin := by
  unfold State.guardTin
  dsimp only
  split
  · exact .of_eq rfl rfl rfl rfl rfl rfl rfl rfl rfl rfl rfl rfl rfl
  · split
    · exact .of_eq rfl rfl rfl rfl rfl rfl rfl rfl rfl rfl rfl rfl rfl
    · split
      · refine Works.trans ?_ (works_settleGuard _)
        exact .of_eq rfl rfl rfl rfl rfl rfl rfl rfl rfl rfl rfl rfl rfl
      · exact .of_eq rfl rfl rfl rfl rfl rfl rfl rfl rfl rfl rfl rfl rfl

/-! ### Weigh unit -/

theorem works_tareSettled (s : State) : Works s s.tareSettled := by
  unfold State.tareSettled
  refine (Works.trans ?_ (works_assignAll _)).trans (works_endDispensing _)
  exact .of_eq rfl rfl rfl rfl rfl rfl rfl rfl rfl rfl rfl rfl rfl

theorem works_countTin (s : State) (t : TinCtx) (j : Job) (w n : Bool) : Works s (s.countTin t j w n) := by
  unfold State.countTin
  dsimp only
  refine ((works_modTin s _).trans (works_modJob _ fun j _ => ?_)).trans (works_handoffNormal _)
  exact (advance_keeps j).trans (plain_keeps _ _ (by simp [Job.advance]) rfl)

theorem works_rejectTin (s : State) (t : TinCtx) (j : Job) (w n : Bool) (c : Cause) :
    Works s (s.rejectTin t j w n c) :=
  (((works_modTin s _).trans (works_failAttempt _ _)).trans (works_suspend _ _ _)).trans (works_handoffReject _)

theorem works_judge (s : State) : Works s s.judge := by
  unfold State.judge
  split
  · exact .refl s
  · split
    · exact .refl s
    · split
      · exact works_countTin s _ _ _ _
      · exact works_countTin s _ _ _ _
      · split
        · exact works_countTin s _ _ _ _
        · exact works_rejectTin s _ _ _ _ _
      · split
        · exact works_countTin s _ _ _ _
        · exact works_rejectTin s _ _ _ _ _

theorem works_endTare (s : State) (m : Option Nat) : Works s (s.endTare m) :=
  ((works_stopCapture s).trans (works_modTin _ _)).trans (works_tareSettled _)

theorem works_endGross (s : State) (m : Option Nat) : Works s (s.endGross m) :=
  ((works_stopCapture s).trans (works_modTin _ _)).trans (works_judge _)

end Sys2Proof.Machine
end

