-- ==== Sys2Proof/Laws/EventLaws.lean ====
section
/-! SUPPORT. The effects of requests and events that are work of the blocks (Laws/Works). The others touch what
that relation keeps: SUBMIT, RETIRE and CLEAR-PORT a slot, INSTALL and REMOVE a position, SET-TIN-CLASS the
classes, SET-LINE the settings, the port events and FETCH-NOTICE their port, and the start events all. -/

namespace Sys2Proof.Machine

/-! ### Requests -/

theorem works_dropCall (s : State) (h : Handle) : Works s (s.dropCall h) := by
  unfold State.dropCall
  split
  · exact works_withdrawCall s
  · exact .refl s

theorem works_dropTin (s : State) (h : Handle) : Works s (s.dropTin h) := by
  unfold State.dropTin
  split
  · split
    · refine (works_modJob s fun j _ => ?_).trans (works_cancelTin _)
      exact plain_keeps j _ rfl rfl
    · exact .refl s
  · exact .refl s

theorem works_cancelWork (s : State) (h : Handle) : Works s (s.cancelWork h) := by
  unfold State.cancelWork
  refine ((((works_modJob s fun j _ => ?_).trans (works_leaveQueue _ _)).trans (works_dropCall _ _)).trans
    (works_releaseClaim _ _)).trans (works_dropTin _ _)
  exact plain_keeps j _ (by simp [Job.notMade]) rfl

theorem works_cancelJob (s : State) (h : Handle) (j : Job) : Works s (s.cancelJob h j).1 := by
  unfold State.cancelJob
  refine (((((works_cancelWork s h).trans (works_modJob _ fun j _ => ?_)).trans (works_notifyJob _ _ _)).trans
    (works_examinePark _)).trans (works_walkAll _ _)).trans (works_selectAfter _ _)
  exact plain_keeps j _ rfl rfl

theorem works_cancelEffect (b : Bytes) (s : State) : Works s (cancelEffect b s).1 := by
  unfold cancelEffect
  split
  · exact works_cancelJob s _ _
  · exact .refl s

theorem resumed_keeps (s : State) (j : Job) : j.Keeps (j.resumed s) := by
  refine j.keeps_of _ ?_ rfl rfl
  unfold Job.resumed
  dsimp only
  split
  · exact Component.same_map (fun c => markLot_keeps s c) _
  · exact Component.same_all_refl _

theorem works_resumeReserve (s : State) (h : Handle) (c : Option Cause) : Works s (s.resumeReserve h c).1 := by
  unfold State.resumeReserve
  split
  · exact works_retryReserve s h
  · exact .refl s

theorem works_resumeJob (s : State) (h : Handle) (j : Job) : Works s (s.resumeJob h j).1 := by
  unfold State.resumeJob
  extract_lets r st s2
  refine Works.trans (Works.trans ?_ (works_wakeIf _ _)) (works_selectAfter _ _)
  refine ((((works_modJob s fun j _ => resumed_keeps s j).trans (works_resumeReserve _ _ _)).trans
    (works_modJob _ fun j _ => ?_))).trans (works_notifyJob _ _ _)
  exact plain_keeps j _ rfl rfl

theorem works_resumeEffect (b : Bytes) (s : State) : Works s (resumeEffect b s).1 := by
  unfold resumeEffect
  split
  · exact works_resumeJob s _ _
  · exact .refl s

/-- CALIBRATE writes a step volume and a density in range. -/
theorem works_calibrateEffect (b : Bytes) (s : State) (hq : 100 ≤ uN b 1 2 ∧ uN b 1 2 ≤ 60000)
    (hd : 800 ≤ uN b 3 2 ∧ uN b 3 2 ≤ 2500) : Works s (calibrateEffect b s).1 := by
  unfold calibrateEffect
  dsimp only
  refine Works.trans ?_ (works_selectAfter _ _)
  have h : Works s ((s.setCan (bodyPos b) { s.can (bodyPos b) with
      kept := (s.can (bodyPos b)).kept.calibrated (uN b 1 2) (uN b 3 2) }).storeCan (bodyPos b)) := by
    refine Works.trans (works_setCan s ?_) (works_storeCan _ _)
    exact kept_keeps rfl rfl id (nextCount_lt _) fun h => { h with q := hq, density := hd }
  split
  · exact h.trans (works_walk _ _)
  · exact h

/-- REFILL-BEGIN locks an installed canister. -/
theorem works_refillBeginEffect (b : Bytes) (s : State) (h : (s.can (bodyPos b)).state ≠ .vacant) :
    Works s (refillBeginEffect b s).1 := works_setCan s (toLocked_keeps h)

/-- REFILL-END fills an installed canister no higher than its capacity. -/
theorem works_refillEndEffect (b : Bytes) (s : State) (h : (s.can (bodyPos b)).state ≠ .vacant) :
    Works s (refillEndEffect b s).1 := by
  unfold refillEndEffect
  dsimp only
  refine (((works_setCan s ?_).trans (works_storeCan _ _)).trans (works_walk _ _)).trans (works_selectAfter _ _)
  refine Canister.Keeps.trans ?_ (rearm_keeps _)
  refine Canister.Keeps.trans (b := { s.can (bodyPos b) with
    kept := (s.can (bodyPos b)).kept.refilled (uN b 1 4) (textAt b 5 8) }) ?_ (toSettled_keeps' h)
  refine kept_keeps rfl rfl (fun hl => ?_) (nextCount_lt _) (declared_of_eq rfl)
  simp only [CanRecord.refilled, CanRecord.taken]
  omega

/-- ADJUST sets a level within the capacity. -/
theorem works_adjustEffect (b : Bytes) (s : State) (h : uN b 3 4 ≤ (s.can (bodyPos b)).kept.capacity) :
    Works s (adjustEffect b s).1 := by
  unfold adjustEffect
  dsimp only
  refine Works.trans ?_ (works_selectAfter _ _)
  have h : Works s ((s.setCan (bodyPos b) { s.can (bodyPos b) with
      kept := (s.can (bodyPos b)).kept.adjusted (uN b 3 4) }).storeCan (bodyPos b)) := by
    refine Works.trans (works_setCan s ?_) (works_storeCan _ _)
    exact kept_keeps rfl rfl (fun _ => h) (nextCount_lt _) (declared_of_eq rfl)
  split
  · exact h.trans (works_examineLow _ _)
  · split
    · exact (h.trans (works_setCan _ (rearm_keeps _))).trans (works_walk _ _)
    · exact h

theorem works_park (s : State) : Works s s.park := by
  unfold State.park
  split
  · split
    · exact works_setMode s (by decide)
    · exact works_setMode s (by decide)
  · exact .refl s

theorem works_parkEffect (s : State) : Works s (parkEffect s).1 := (works_park s).trans (works_select _)

theorem works_wakeEffect (s : State) : Works s (wakeEffect s).1 := (works_wake s).trans (works_select _)

theorem works_retare (s : State) : Works s s.retare := by
  unfold State.retare
  split
  · exact works_startTare s
  · exact .refl s

theorem works_leaveHalted (s : State) : Works s s.leaveHalted := by
  unfold State.leaveHalted
  refine Works.trans ?_ (works_select _)
  refine Works.trans ?_ (works_relid _)
  refine Works.trans ?_ (works_examineTransfer _)
  refine Works.trans ?_ (works_remix _ _)
  refine Works.trans ?_ (works_remix _ _)
  refine Works.trans ?_ (works_retare _)
  exact (works_setMode s (m := .run) (by decide)).trans (works_foldl works_examineRecirc allPos (s.setMode .run))

theorem works_resumeLineEffect (s : State) : Works s (resumeLineEffect s).1 := by
  unfold resumeLineEffect
  cases s.halted
  · exact .refl s
  · simp only [if_true]; exact works_leaveHalted s

theorem works_mixerReturnEffect (b : Bytes) (s : State) : Works s (mixerReturnEffect b s).1 := by
  unfold mixerReturnEffect
  dsimp only
  split
  · exact (works_setMixer s _ _).trans (works_examineTransfer _)
  · exact works_setMixer s _ _

/-! ### Pumps, scale, scanner and timers -/

theorem works_burstDone (s : State) (p : Pos) (k : Nat) : Works s (s.burstDone p k) := by
  unfold State.burstDone
  split
  · exact (works_takeBurst s p k).trans (works_selectAfter _ _)
  all_goals exact .refl s

theorem works_chargeDone (s : State) (p : Pos) : Works s (s.chargeDone p) := by
  unfold State.chargeDone
  split
  · exact (works_pumpEnds s p fun _ => le_refl _).trans (works_resumeCharge _ _)
  all_goals exact .refl s

theorem works_recircDone (s : State) (p : Pos) : Works s (s.recircDone p) := by
  unfold State.recircDone
  split
  · dsimp only
    have h : Works s (s.setPump p { charge := (s.can p).kept.stroke, state := .idle }) :=
      works_setPump s fun _ => le_refl _
    split
    · next hs =>
      refine (h.trans (works_setCan _ ?_)).trans (works_resumeRecirc _ _)
      exact toReady_keeps (by simp [hs]) (by simp [hs])
    · exact h.trans (works_examineRecirc _ _)
  all_goals exact .refl s

theorem works_haltReport (s : State) (p : Pos) (k : Nat) : Works s (s.haltReport p k) := by
  unfold State.haltReport
  split
  · exact (works_takeBurst s p k).trans (works_selectAfter _ _)
  · exact (works_pumpEnds s p fun _ => Nat.zero_le _).trans (works_resumeCharge _ _)
  · exact works_pumpEnds s p fun _ => Nat.zero_le _
  · exact .refl s

theorem works_endCapture (s : State) (m : Option Nat) : Works s (s.endCapture m) := by
  unfold State.endCapture
  split
  · exact .refl s
  · exact (works_endTare s m).trans (works_select _)
  · exact (works_endGross s m).trans (works_select _)

theorem works_reading (s : State) (m : Nat) (a b : Bool) : Works s (s.reading m a b) := by
  unfold State.reading
  split
  · exact works_endCapture s _
  · exact .refl s

theorem works_scaleTimeout (s : State) : Works s s.scaleTimeout := by
  unfold State.scaleTimeout
  split
  · exact works_endCapture s _
  · exact .refl s

theorem works_admitTin (s : State) (c : Call) (j : Job) : Works s (s.admitTin c j) := by
  unfold State.admitTin
  refine (Works.trans ?_ (works_modJob _ fun j _ => ?_)).trans (works_startTare _)
  · exact .of_eq rfl rfl rfl rfl rfl rfl rfl rfl rfl rfl rfl rfl rfl
  · exact plain_keeps j _ rfl rfl

theorem works_scan (s : State) (a b : Text) : Works s (s.scan a b) := by
  unfold State.scan
  split
  · exact .refl s
  · split
    · exact .refl s
    · split
      · exact .refl s
      · split
        · exact works_admitTin s _ _
        · exact works_notify s _ _

theorem works_settleExpiry (s : State) (p : Pos) : Works s (s.settleExpiry p) := by
  unfold State.settleExpiry
  dsimp only
  split
  · next h =>
    simp only [Bool.and_eq_true, beq_iff_eq] at h
    split
    · exact works_setCan s (toStirring_keeps (by simp [h.1]) (by simp [h.1]))
    · exact works_setCan s (toStirring_keeps (by simp [h.1]) (by simp [h.1]))
    · exact works_setCan s (toSettled_keeps' (by simp [h.1]))
    · exact works_setCan s (toSettled_keeps' (by simp [h.1]))
  · exact .refl s

theorem works_keepStirExpiry (s : State) (p : Pos) : Works s (s.keepStirExpiry p) := by
  unfold State.keepStirExpiry
  dsimp only
  split
  · next h =>
    simp only [Bool.and_eq_true, beq_iff_eq] at h
    exact (works_setCan s (toReady_keeps (by simp [h.1]) (by simp [h.1]))).trans (works_resumeRecirc _ _)
  · exact .refl s

theorem works_dwellExpiry (s : State) (d : ChanId) : Works s (s.dwellExpiry d) := by
  unfold State.dwellExpiry
  dsimp only
  split
  · exact (works_setChan s _ _).trans (works_startCheck _ _)
  · exact .refl s

theorem works_dripExpiry (s : State) : Works s s.dripExpiry := by
  unfold State.dripExpiry
  split
  · exact .refl s
  · split
    · exact .refl s
    · split
      · exact .of_eq rfl rfl rfl rfl rfl rfl rfl rfl rfl rfl rfl rfl rfl
      · exact .refl s

/-! ### Mixers, lidder, lanes, guard and call timer -/

theorem works_loaded (s : State) (m : MixerId) : Works s (s.loaded m) := by
  unfold State.loaded
  split
  · exact ((works_setMixer s _ _).trans (works_stationLeaves _)).trans (works_select _)
  · exact .refl s

theorem works_goOut (s : State) (m : MixerId) : Works s (s.goOut m) :=
  (works_setMixer s _ _).trans (works_notifyAll _ _)

theorem works_clampFault (s : State) (m : MixerId) : Works s (s.clampFault m) := by
  unfold State.clampFault
  split
  · exact works_goOut s m
  · exact (works_goOut s m).trans (works_examineTransfer _)
  · exact works_goOut s m
  · refine ((Works.trans ?_ (works_goOut _ m)).trans (works_examineLidder _)).trans (works_select _)
    exact .of_eq rfl rfl rfl rfl rfl rfl rfl rfl rfl rfl rfl rfl rfl
  · exact .refl s

theorem works_mixExpiry (s : State) (m : MixerId) : Works s (s.mixExpiry m) := by
  unfold State.mixExpiry
  dsimp only
  split
  · exact ((works_setMixer s _ _).trans (works_joinClaim _ _)).trans (works_select _)
  · exact .refl s

theorem works_laneWait (s : State) (x : Lane) : Works s (s.laneWait x) := by
  unfold State.laneWait
  refine Works.trans ?_ (works_notifyEach _ _ _)
  exact .of_eq rfl rfl rfl rfl rfl rfl rfl rfl rfl rfl rfl rfl rfl

theorem works_lidded (s : State) : Works s s.lidded := by
  unfold State.lidded
  split
  · exact .refl s
  · next x hx =>
    split
    · split
      · next hr => exact (works_placeTin s hx hr).trans (works_select _)
      · exact works_laneWait s _
    · exact .refl s

theorem works_tinTaken (s : State) (x : Lane) : Works s (s.tinTaken x) := by
  unfold State.tinTaken
  dsimp only
  have h : Works s { s with lanes := s.lanes.setCount x (s.lanes.count x - 1) } :=
    works_lanes s s.lidder fun h => le_trans (Nat.sub_le _ _) h
  split
  · exact (h.trans (works_examineLane _)).trans (works_select _)
  · exact h

theorem works_expirySuspend (s : State) (h : Handle) : Works s (s.expirySuspend h) := by
  unfold State.expirySuspend
  split
  · split
    · exact works_suspend s _ _
    · exact .refl s
  · exact .refl s

theorem works_callExpiry (s : State) : Works s s.callExpiry := by
  unfold State.callExpiry
  split
  · exact .refl s
  · split
    · refine ((((((works_withdrawCall s).trans (works_modJob _ fun j _ => ?_)).trans (works_calmJob _ _)).trans
        (works_rotate _ _)).trans (works_expirySuspend _ _)).trans (works_examinePark _)).trans (works_select _)
      exact plain_keeps j _ rfl rfl
    · exact .refl s

theorem works_stopBlocks (s : State) : Works s s.stopBlocks := by
  unfold State.stopBlocks
  refine Works.trans ?_ (works_guardTin _)
  refine ⟨rfl, rfl, rfl, rfl, rfl, rfl, rfl, id, fun _ => .refl _, fun _ => .refl _, fun _ => id, id, ?_, ?_⟩
  · intro p
    show (s.can p).Keeps ((mapVec Canister.atGuard s.canisters)[p])
    rw [mapVec_getFin]
    exact canAtGuard_keeps _
  · intro p hp
    show (s.pump p).charge ≤ ((mapVec Canister.atGuard s.canisters)[p]).kept.stroke
    rw [mapVec_getFin]
    rw [show (s.canisters[p].atGuard).kept.stroke = (s.can p).kept.stroke from
      (canAtGuard_keeps (s.can p)).stroke]
    exact hp

/-- A change of the line mode with its guard flag as HALTED asks. -/
theorem works_halted (s : State) (g : GuardState) :
    Works s { s with line := { s.line with mode := .halted, guard := some g } } :=
  ⟨rfl, rfl, rfl, rfl, rfl, rfl, rfl, fun _ => rfl, fun _ => .refl _, fun _ => .refl _, fun _ => id, id,
    fun _ => .refl _, fun _ => id⟩

theorem works_flag (s : State) (g : GuardState) (h : s.halted = true) :
    Works s { s with line := { s.line with guard := some g } } := by
  refine ⟨rfl, rfl, rfl, rfl, rfl, rfl, rfl, fun _ => ?_, fun _ => .refl _, fun _ => .refl _, fun _ => id, id,
    fun _ => .refl _, fun _ => id⟩
  exact h.symm

theorem works_haltLine (s : State) : Works s s.haltLine := by
  unfold State.haltLine
  exact (((works_halted s _).trans (works_send _ _)).trans (works_notifyAll _ _)).trans (works_stopBlocks _)

theorem works_guardOpened (s : State) : Works s s.guardOpened := by
  unfold State.guardOpened
  split
  · next h =>
    split
    · exact (works_flag s _ h).trans (works_notifyAll _ _)
    · exact .refl s
    · exact .refl s
  · exact works_haltLine s

theorem works_guardClosed (s : State) : Works s s.guardClosed := by
  unfold State.guardClosed
  split
  · next h =>
    simp only [Bool.and_eq_true] at h
    exact (works_flag s _ h.1).trans (works_notifyAll _ _)
  · exact .refl s

end Sys2Proof.Machine
end

