-- ==== Sys2Proof/Laws/TakeLaws.lean ====
section
/-! SUPPORT. The taking of a request said once, and the updates of one port that it makes (R162 to R164). -/

namespace Sys2Proof.Machine

theorem set_set_same {α : Type} {n : Nat} (v : Vector α n) (i : Nat) (h : i < n) (x y : α) :
    (v.set i x).set i y = v.set i y := by
  ext k hk
  simp only [Vector.getElem_set]
  split <;> rfl

theorem set_set_swap {α : Type} {n : Nat} (v : Vector α n) {i k : Nat} (hi : i < n) (hk : k < n) (h : i ≠ k)
    (x y : α) : (v.set i x).set k y = (v.set k y).set i x := by
  ext m hm
  simp only [Vector.getElem_set]
  split <;> split <;> first | rfl | omega

@[simp] theorem setPort_setPort (s : State) (p : Port) (v w : PortState) :
    (s.setPort p v).setPort p w = s.setPort p w := by
  simp [State.setPort]

theorem setPort_swap (s : State) {p q : Port} (h : p ≠ q) (v w : PortState) :
    (s.setPort p v).setPort q w = (s.setPort q w).setPort p v := by
  simp only [State.setPort]
  rw [set_set_swap _ _ _ (portIdx_ne h)]

/-- Setting a port to what it is changes nothing. -/
theorem setPort_port (s : State) (p : Port) : s.setPort p (s.port p) = s := by
  simp [State.setPort, State.port]

theorem canTake_iff {s : State} {p : Port} {k : ReqKind} {tag : Byte} {body : Bytes} :
    s.canTake p ⟨k, tag, body⟩ = true ↔ s.Takes p k tag body := by
  unfold State.canTake State.Takes State.active PortState.requestOut
  simp [and_assoc]

theorem canTake_false {s : State} {p : Port} {k : ReqKind} {tag : Byte} {body : Bytes}
    (h : ¬ s.Takes p k tag body) : s.canTake p ⟨k, tag, body⟩ = false := by
  rw [← canTake_iff] at h; simpa using h

section
variable {s : State} {p : Port} {k : ReqKind} {tag : Byte} {body : Bytes}
  {refusal : State → Option Nak} {effect : State → State × Bytes}

/-- A request its port does not take changes nothing. -/
theorem take_not (h : ¬ s.Takes p k tag body) : s.take p k tag body refusal effect = s := by
  simp [State.take, canTake_false h]

/-- A request from a port whose role does not allow it is answered ROLE. -/
theorem take_role (h : s.Takes p k tag body) (ha : admits k p = false) :
    s.take p k tag body refusal effect = s.replied p k tag [1, 0, 0] := by
  simp only [State.take, canTake_iff.2 h, ha]
  simp [State.popHold, State.answer, State.replied, requestAnswer, answerKind, Nak.bytes, nak, codeAnswer, byte]

/-- A request that fails a check gets that check's answer. -/
theorem take_refused (h : s.Takes p k tag body) (ha : admits k p = true) {r : Nak}
    (hr : refusal (s.popHold p) = some r) :
    s.take p k tag body refusal effect = s.replied p k tag r.bytes := by
  simp only [State.take, canTake_iff.2 h, ha, serve, hr]
  simp [State.popHold, State.answer, State.replied, requestAnswer, answerKind]

/-- A request that passes every check has its effect, and its OK answer is out. -/
theorem take_ok (h : s.Takes p k tag body) (ha : admits k p = true) (hr : refusal (s.popHold p) = none) :
    s.take p k tag body refusal effect =
      (effect (s.popHold p)).1.answer p (requestAnswer k tag (okBytes (effect (s.popHold p)).2)) := by
  simp [State.take, canTake_iff.2 h, ha, serve, hr]

/-- A request that only reads leaves its answer alone. -/
theorem take_read {content : State → Bytes} (h : s.Takes p k tag body) (ha : admits k p = true)
    (hr : refusal (s.popHold p) = none) :
    s.take p k tag body refusal (fun s => (s, content s)) =
      s.replied p k tag (okBytes (content (s.popHold p))) := by
  rw [take_ok h ha hr]
  simp [State.popHold, State.answer, State.replied, requestAnswer, answerKind]

/-- Everything the taking of a request can do. -/
theorem take_cases (p : Port) (k : ReqKind) (tag : Byte) (body : Bytes) (refusal : State → Option Nak)
    (effect : State → State × Bytes) (s : State) :
    s.take p k tag body refusal effect = s ∨
    (s.Takes p k tag body ∧ ∃ b, s.take p k tag body refusal effect = s.replied p k tag b) ∨
    (s.Takes p k tag body ∧ refusal (s.popHold p) = none ∧
      s.take p k tag body refusal effect =
        (effect (s.popHold p)).1.answer p (requestAnswer k tag (okBytes (effect (s.popHold p)).2))) := by
  by_cases h : s.Takes p k tag body
  · right
    by_cases ha : admits k p = true
    · cases hr : refusal (s.popHold p) with
      | none => exact .inr ⟨h, rfl, take_ok h ha hr⟩
      | some r => exact .inl ⟨h, _, take_refused h ha hr⟩
    · exact .inl ⟨h, _, take_role h (by simpa using ha)⟩
  · exact .inl (take_not h)

end

end Sys2Proof.Machine
end

