-- ==== Sys2Proof/Laws/PerInstr.lean ====
section
/-! SUPPORT. A family of facts about every command as syntax: the frame that a well-formed request row takes can be
sent on a link. -/

namespace Sys2Proof.Laws.Sendable

open Sys2Proof Sys2Proof.Machine

/-- The frame of a well-formed request row can be sent (R175, R176): its body is no longer than 240 bytes, its length
byte announces that body, and its kind byte is read back as its kind. -/
def Statement (i : Instr) : Prop :=
  i.wf = true → ∀ p f, requestOf i = some (p, f) →
    f.body.length ≤ 240 ∧ (byte f.body.length).toNat = f.body.length ∧ kindOf? (codeKind f.kind) = some f.kind

theorem of_fits {i : Instr} (h : i.wf = true → ∀ p f, requestOf i = some (p, f) → bodyFits f.body = true) :
    Statement i := fun hw p f hf => by
  have hb : f.body.length ≤ 240 := of_decide_eq_true (h hw p f hf)
  refine ⟨hb, ?_, ?_⟩
  · simp [byte]; omega
  · cases f.kind <;> rfl

theorem of_none {i : Instr} (h : requestOf i = none) : Statement i := fun _ p f hf => by simp [h] at hf

theorem submit (p : Port) (tag : Byte) (body : Bytes) : Statement (.submit p tag body) :=
  of_fits fun hw _ _ hf => by cases hf; exact hw
theorem cancel (p : Port) (tag : Byte) (body : Bytes) : Statement (.cancel p tag body) :=
  of_fits fun hw _ _ hf => by cases hf; exact hw
theorem resume (p : Port) (tag : Byte) (body : Bytes) : Statement (.resume p tag body) :=
  of_fits fun hw _ _ hf => by cases hf; exact hw
theorem retire (p : Port) (tag : Byte) (body : Bytes) : Statement (.retire p tag body) :=
  of_fits fun hw _ _ hf => by cases hf; exact hw
theorem readJob (p : Port) (tag : Byte) (body : Bytes) : Statement (.readJob p tag body) :=
  of_fits fun hw _ _ hf => by cases hf; exact hw
theorem readTin (p : Port) (tag : Byte) (body : Bytes) : Statement (.readTin p tag body) :=
  of_fits fun hw _ _ hf => by cases hf; exact hw
theorem install (p : Port) (tag : Byte) (body : Bytes) : Statement (.install p tag body) :=
  of_fits fun hw _ _ hf => by cases hf; exact hw
theorem remove (p : Port) (tag : Byte) (body : Bytes) : Statement (.remove p tag body) :=
  of_fits fun hw _ _ hf => by cases hf; exact hw
theorem calibrate (p : Port) (tag : Byte) (body : Bytes) : Statement (.calibrate p tag body) :=
  of_fits fun hw _ _ hf => by cases hf; exact hw
theorem refillBegin (p : Port) (tag : Byte) (body : Bytes) : Statement (.refillBegin p tag body) :=
  of_fits fun hw _ _ hf => by cases hf; exact hw
theorem refillEnd (p : Port) (tag : Byte) (body : Bytes) : Statement (.refillEnd p tag body) :=
  of_fits fun hw _ _ hf => by cases hf; exact hw
theorem adjust (p : Port) (tag : Byte) (body : Bytes) : Statement (.adjust p tag body) :=
  of_fits fun hw _ _ hf => by cases hf; exact hw
theorem readCanister (p : Port) (tag : Byte) (body : Bytes) : Statement (.readCanister p tag body) :=
  of_fits fun hw _ _ hf => by cases hf; exact hw
theorem setTinClassSet (p : Port) (tag : Byte) (body : Bytes) : Statement (.setTinClassSet p tag body) :=
  of_fits fun hw p f hf => by
  simp only [requestOf] at hf; split at hf <;> first | (cases hf; exact hw) | cases hf
theorem setTinClassDelete (p : Port) (tag : Byte) (body : Bytes) : Statement (.setTinClassDelete p tag body) :=
  of_fits fun hw p f hf => by
  simp only [requestOf] at hf; split at hf <;> first | (cases hf; exact hw) | cases hf
theorem setLine (p : Port) (tag : Byte) (body : Bytes) : Statement (.setLine p tag body) :=
  of_fits fun hw _ _ hf => by cases hf; exact hw
theorem lineModePark (p : Port) (tag : Byte) (body : Bytes) : Statement (.lineModePark p tag body) :=
  of_fits fun hw p f hf => by
  simp only [requestOf] at hf; split at hf <;> first | (cases hf; exact hw) | cases hf
theorem lineModeWake (p : Port) (tag : Byte) (body : Bytes) : Statement (.lineModeWake p tag body) :=
  of_fits fun hw p f hf => by
  simp only [requestOf] at hf; split at hf <;> first | (cases hf; exact hw) | cases hf
theorem resumeLine (p : Port) (tag : Byte) (body : Bytes) : Statement (.resumeLine p tag body) :=
  of_fits fun hw _ _ hf => by cases hf; exact hw
theorem mixerReturn (p : Port) (tag : Byte) (body : Bytes) : Statement (.mixerReturn p tag body) :=
  of_fits fun hw _ _ hf => by cases hf; exact hw
theorem find (p : Port) (tag : Byte) (body : Bytes) : Statement (.find p tag body) :=
  of_fits fun hw _ _ hf => by cases hf; exact hw
theorem status (p : Port) (tag : Byte) (body : Bytes) : Statement (.status p tag body) :=
  of_fits fun hw _ _ hf => by cases hf; exact hw
theorem fetchNotice (p : Port) (tag : Byte) (body : Bytes) : Statement (.fetchNotice p tag body) :=
  of_fits fun hw _ _ hf => by cases hf; exact hw
theorem clearPort (p : Port) (tag : Byte) (body : Bytes) : Statement (.clearPort p tag body) :=
  of_fits fun hw _ _ hf => by cases hf; exact hw
theorem frameReceived (p : Port) (kind tag : Byte) (body : Bytes) (crc : BitVec 16) : Statement (.frameReceived p kind tag body crc) := of_none rfl
theorem frameGapTimeout (p : Port) : Statement (.frameGapTimeout p) := of_none rfl
theorem answerSent (p : Port) : Statement (.answerSent p) := of_none rfl
theorem burstDone (pos : Pos) (steps : Nat) : Statement (.burstDone pos steps) := of_none rfl
theorem chargeDone (pos : Pos) : Statement (.chargeDone pos) := of_none rfl
theorem recircDone (pos : Pos) : Statement (.recircDone pos) := of_none rfl
theorem haltReport (pos : Pos) (steps : Nat) : Statement (.haltReport pos steps) := of_none rfl
theorem reading (mass : Nat) (stable overload : Bool) : Statement (.reading mass stable overload) := of_none rfl
theorem scan (cls base : Text) : Statement (.scan cls base) := of_none rfl
theorem loaded (m : MixerId) : Statement (.loaded m) := of_none rfl
theorem clampFault (m : MixerId) : Statement (.clampFault m) := of_none rfl
theorem lidded : Statement .lidded := of_none rfl
theorem tinTaken (lane : Lane) : Statement (.tinTaken lane) := of_none rfl
theorem guardOpened : Statement .guardOpened := of_none rfl
theorem guardClosed : Statement .guardClosed := of_none rfl
theorem resetAssert (writing : Option StoreKey) : Statement (.resetAssert writing) := of_none rfl
theorem partStart : Statement .partStart := of_none rfl
theorem settleTimerExpiry (pos : Pos) : Statement (.settleTimerExpiry pos) := of_none rfl
theorem keepStirTimerExpiry (pos : Pos) : Statement (.keepStirTimerExpiry pos) := of_none rfl
theorem callTimerExpiry : Statement .callTimerExpiry := of_none rfl
theorem dwellTimerExpiry (d : ChanId) : Statement (.dwellTimerExpiry d) := of_none rfl
theorem dripTimerExpiry : Statement .dripTimerExpiry := of_none rfl
theorem scaleSettleTimeout : Statement .scaleSettleTimeout := of_none rfl
theorem mixTimerExpiry (m : MixerId) : Statement (.mixTimerExpiry m) := of_none rfl
theorem powerLoss (writing : Option StoreKey) : Statement (.powerLoss writing) := of_none rfl
theorem frameStartByte (p : Port) : Statement (.frameStartByte p) := of_none rfl
theorem lengthByteAbove240 (p : Port) (len : Byte) : Statement (.lengthByteAbove240 p len) := of_none rfl

end Sys2Proof.Laws.Sendable
end

