-- ==== Sys2Proof/Laws/ServeLaws.lean ====
section
/-! SUPPORT. What walks, grants, calls, selections, transfers and the lidder's takes leave as it was, said once
(`State.Serves`, `State.Moves`). -/

namespace Sys2Proof.Machine

/-! ### The relations -/

theorem mapVec_set_same {α β : Type} {n : Nat} {f : α → β} {v : Vector α n} {i : Nat} (h : i < n) {x : α}
    (hx : f x = f v[i]) : mapVec f (v.set i x) = mapVec f v := by
  ext k hk
  simp only [mapVec_getElem, Vector.getElem_set]
  split
  · next e => subst e; exact hx
  · rfl

theorem State.Serves.refl (s : State) : s.Serves s := ⟨rfl, fun _ _ => rfl⟩

theorem State.Serves.trans {a b c : State} (h : a.Serves b) (k : b.Serves c) : a.Serves c :=
  ⟨k.same.trans h.same, fun p hp => by
    have e := h.cans p hp
    rw [k.cans p (by rw [e]; exact hp), e]⟩

theorem State.Serves.moves {s t : State} (h : s.Serves t) : s.Moves t :=
  ⟨congrArg (fun x : State => { x with tin := none, m1 := Mixer.idle, m2 := Mixer.idle, lidder := Lidder.start }) h.same,
    h.cans⟩

theorem State.Moves.refl (s : State) : s.Moves s := ⟨rfl, fun _ _ => rfl⟩

theorem State.Moves.trans {a b c : State} (h : a.Moves b) (k : b.Moves c) : a.Moves c :=
  ⟨k.same.trans h.same, fun p hp => by
    have e := h.cans p hp
    rw [k.cans p (by rw [e]; exact hp), e]⟩

/-! ### Primitive services -/

theorem serves_setPort (s : State) {p : Port} {v : PortState} (h : v.sansNotices = (s.port p).sansNotices) :
    s.Serves (s.setPort p v) := by
  refine ⟨?_, fun _ _ => rfl⟩
  simp only [State.sansService, State.setPort]
  rw [mapVec_set_same _ h]

theorem arrive_sans (ps : PortState) (n : Notice) : (ps.arrive n).sansNotices = ps.sansNotices := by
  unfold PortState.arrive
  split
  · rfl
  · split <;> rfl

theorem serves_notify (s : State) (p : Port) (n : Notice) : s.Serves (s.notify p n) :=
  serves_setPort s (arrive_sans _ n)

theorem serves_notifyEach (ps : List Port) (n : Notice) (s : State) : s.Serves (s.notifyEach ps n) := by
  unfold State.notifyEach
  induction ps generalizing s with
  | nil => exact .refl s
  | cons p ps ih => exact (serves_notify s p n).trans (ih _)

theorem serves_notifyAll (s : State) (n : Notice) : s.Serves (s.notifyAll n) := serves_notifyEach _ n s

theorem serves_notifyJob (s : State) (h : Handle) (c : Cause) : s.Serves (s.notifyJob h c) := by
  unfold State.notifyJob
  split
  · exact serves_notify s _ _
  · exact .refl s

theorem serves_setSlot (s : State) {i : Fin 24} {v : Slot} (hg : v.gen = (s.slot i).gen)
    (hj : v.job.map Job.sansStock = (s.slot i).job.map Job.sansStock) : s.Serves (s.setSlot i v) := by
  refine ⟨?_, fun _ _ => rfl⟩
  simp only [State.sansService, State.setSlot]
  rw [mapVec_set_same]
  show Slot.mk v.gen (v.job.map Job.sansStock) = Slot.mk (s.slot i).gen ((s.slot i).job.map Job.sansStock)
  rw [hg, hj]

theorem serves_modJob (s : State) {h : Handle} {f : Job → Job}
    (hf : ∀ j, s.job? h = some j → (f j).sansStock = j.sansStock) : s.Serves (s.modJob h f) := by
  unfold State.modJob
  cases hj : s.job? h with
  | none => exact .refl s
  | some j =>
    refine serves_setSlot s ?_ ?_
    · rw [job?_eq_some hj]
    · rw [job?_eq_some hj]; simp [hf j hj]

theorem serves_setWait (s : State) (p : Pos) (l : List Handle) : s.Serves (s.setWait p l) :=
  ⟨rfl, fun _ _ => rfl⟩

theorem serves_setQueue (s : State) (q : List Handle) : s.Serves (s.setQueue q) := ⟨rfl, fun _ _ => rfl⟩

theorem serves_joinQueue (s : State) (h : Handle) : s.Serves (s.joinQueue h) := by
  unfold State.joinQueue
  split
  · exact .refl s
  · exact serves_setQueue s _

theorem serves_leaveQueue (s : State) (h : Handle) : s.Serves (s.leaveQueue h) := serves_setQueue s _

theorem serves_send (s : State) (c : Sent) : s.Serves (s.send c) := ⟨rfl, fun _ _ => rfl⟩

theorem serves_setMode (s : State) (m : LineMode) : s.Serves (s.setMode m) := by
  refine State.Serves.trans ?_ (serves_notifyAll _ _)
  exact ⟨rfl, fun _ _ => rfl⟩

theorem serves_examinePark (s : State) : s.Serves s.examinePark := by
  unfold State.examinePark
  split
  · exact serves_setMode s _
  · exact .refl s

theorem serves_wake (s : State) : s.Serves s.wake := by
  unfold State.wake
  split
  · exact serves_setMode s _
  · exact .refl s

theorem serves_wakeIf (s : State) (b : Bool) : s.Serves (s.wakeIf b) := by
  cases b
  · exact .refl s
  · exact serves_wake s

theorem serves_setPump (s : State) {p : Pos} {v : Pump} (h : v.charge = (s.pump p).charge) :
    s.Serves (s.setPump p v) := by
  refine ⟨?_, fun _ _ => rfl⟩
  simp only [State.sansService, State.setPump]
  rw [mapVec_set_same]
  show Pump.mk v.charge .idle = Pump.mk (s.pump p).charge .idle
  rw [h]

/-- An update of a SETTLED canister that leaves its kept fields and its latch. -/
theorem serves_setCan (s : State) {p : Pos} {c : Canister} (hs : (s.can p).state = .settled)
    (h : c.sansStir = (s.can p).sansStir) : s.Serves (s.setCan p c) := by
  refine ⟨?_, fun q hq => ?_⟩
  · simp only [State.sansService, State.setCan]
    rw [mapVec_set_same _ h]
  · exact can_setCan_other s (fun e => hq (by rw [← e]; exact hs)) c

theorem serves_examineRecirc (s : State) (p : Pos) : s.Serves (s.examineRecirc p) := by
  unfold State.examineRecirc
  dsimp only
  split
  · next h =>
    simp only [Bool.and_eq_true, beq_iff_eq] at h
    refine ((serves_setCan s h.1.1.2 ?_).trans (serves_setPump _ ?_)).trans (serves_send _ _)
    · rfl
    · rfl
  · exact .refl s

theorem serves_askRecirc (s : State) (p : Pos) : s.Serves (s.askRecirc p) := by
  unfold State.askRecirc
  dsimp only
  split
  · next h =>
    refine (serves_setCan s (by simpa using h) ?_).trans (serves_examineRecirc _ _)
    rfl
  · exact .refl s

/-! ### Walks -/

theorem addReserved_sans (l : List Nat) (cs : List Component) :
    (addReserved l cs).map Component.sansStock = cs.map Component.sansStock := by
  induction cs generalizing l with
  | nil => cases l <;> rfl
  | cons c cs ih =>
    cases l with
    | nil => rfl
    | cons k ks => simp only [addReserved, List.map_cons, ih]; rfl

theorem serves_grant (s : State) (p : Pos) (h : Handle) : s.Serves (s.grant p h) := by
  unfold State.grant
  dsimp only
  refine (((serves_modJob s fun j _ => ?_).trans (serves_setWait _ _ _)).trans (serves_joinQueue _ _)).trans
    (serves_notifyJob _ _ _)
  simp only [Job.sansStock, addReserved_sans]

theorem serves_moveWait (s : State) (p y : Pos) (h : Handle) (r : Bool) (k : Nat) :
    s.Serves (s.moveWait p y h r k) := by
  unfold State.moveWait
  dsimp only
  exact ((serves_setWait s _ _).trans (serves_setWait _ _ _)).trans (serves_notify _ _ _)

theorem serves_walkFrom (p : Pos) (l : List Handle) (b : Bool) (s : State) :
    s.Serves (State.walkFrom p l b s).1 := by
  induction l generalizing b s with
  | nil => exact .refl s
  | cons h rest ih =>
    unfold State.walkFrom
    split
    · exact .refl s
    · split
      · exact .refl s
      · split
        · exact (serves_grant s p h).trans (ih _ _)
        · exact (serves_moveWait s _ _ _ _ _).trans (ih _ _)

theorem serves_walk (s : State) (p : Pos) : s.Serves (s.walk p) :=
  (serves_walkFrom p _ _ s).trans (serves_wakeIf _ _)

theorem serves_walkAll (s : State) (ps : List Pos) : s.Serves (s.walkAll ps) := by
  unfold State.walkAll
  induction ps generalizing s with
  | nil => exact .refl s
  | cons p ps ih => exact (serves_walk s p).trans (ih _)

/-! ### Selections -/

theorem serves_suspend (s : State) (h : Handle) (c : Cause) : s.Serves (s.suspend h c) := by
  unfold State.suspend
  refine ((serves_modJob s fun j _ => ?_).trans (serves_notifyJob _ _ _)).trans (serves_examinePark _)
  rfl

theorem serves_applyQuota (s : State) (h : Handle) : s.Serves (s.applyQuota h) := by
  unfold State.applyQuota
  extract_lets left
  by_cases hl : left = 0
  · rw [if_pos hl]; exact serves_leaveQueue s h
  · rw [if_neg hl]
    split
    · split <;> exact ⟨rfl, fun _ _ => rfl⟩
    · exact .refl s

theorem serves_askAll (l : List Nat) (cs : List Component) (s : State) : s.Serves (s.askAll l cs) := by
  induction l generalizing cs s with
  | nil => unfold State.askAll; exact .refl s
  | cons k ks ih =>
    cases cs with
    | nil => exact .refl s
    | cons c cs =>
      unfold State.askAll
      refine State.Serves.trans ?_ (ih _ _)
      split
      · exact .refl s
      · exact serves_askRecirc s _

theorem serves_makeCall (s : State) (h : Handle) (j : Job) : s.Serves (s.makeCall h j) := by
  unfold State.makeCall
  dsimp only
  refine ((((State.Serves.trans ?_ (serves_notify _ _ _)).trans (serves_askAll _ _ _)).trans
    (serves_modJob _ fun j _ => ?_))).trans (serves_applyQuota _ _)
  · exact ⟨rfl, fun _ _ => rfl⟩
  · split <;> rfl

theorem markLot_sans (s : State) (c : Component) : (s.markLot c).sansStock = c.sansStock := by
  unfold State.markLot
  split <;> rfl

theorem serves_restateJob (s before : State) (h : Handle) (c : Cause) : s.Serves (s.restateJob before h c) := by
  unfold State.restateJob
  split
  · split
    · exact serves_setPort s rfl
    · exact .refl s
  · exact .refl s

theorem serves_lotStop (s before : State) (h : Handle) : s.Serves (s.lotStop before h) := by
  unfold State.lotStop
  have h1 : s.Serves (s.modJob h fun j => { j with state := .suspended, cause := some .lotStop }) :=
    serves_modJob s fun _ _ => rfl
  refine (h1.trans ?_).trans (serves_examinePark _)
  split
  · exact serves_restateJob _ _ _ _
  · exact serves_notifyJob _ _ _

theorem serves_selectFrom (before : State) (l : List Handle) (s : State) :
    s.Serves (State.selectFrom before l s) := by
  induction l generalizing s with
  | nil => exact .refl s
  | cons h rest ih =>
    unfold State.selectFrom
    split
    · exact ih s
    · next j hj =>
      split
      · split
        · split
          · dsimp only
            refine (serves_modJob s fun k hk => ?_).trans (serves_makeCall _ _ _)
            rw [hj] at hk
            cases hk
            simp only [Job.sansStock, List.map_map]
            congr 1
            refine List.map_congr_left fun c _ => ?_
            show Component.sansStock (if s.lotBroken j c = true then s.markLot c else c) = _
            split
            · exact markLot_sans s c
            · rfl
          · exact (serves_lotStop s _ _).trans (ih _)
        · exact serves_makeCall s _ _
      · exact ih s

theorem serves_selectAfter (s before : State) : s.Serves (s.selectAfter before) := by
  unfold State.selectAfter
  split
  · exact serves_selectFrom _ _ s
  · exact .refl s

theorem serves_select (s : State) : s.Serves s.select := serves_selectAfter s s

theorem serves_calmJob (s : State) (h : Handle) : s.Serves (s.calmJob h) := by
  unfold State.calmJob
  split
  · exact .refl s
  · split
    · exact serves_modJob s fun j _ => rfl
    · exact .refl s

theorem serves_contextEnded (s : State) (h : Handle) : s.Serves (s.contextEnded h) := by
  unfold State.contextEnded
  split
  · exact .refl s
  · split
    · refine (serves_modJob s fun j _ => ?_).trans (serves_notifyJob _ _ _)
      rfl
    · split
      · refine (serves_modJob s fun j _ => ?_).trans (serves_notifyJob _ _ _)
        rfl
      · exact serves_calmJob s h

/-! ### Tins that move on -/

theorem moves_setMixer (s : State) (m : MixerId) (v : Mixer) : s.Moves (s.setMixer m v) := by
  cases m <;> exact ⟨rfl, fun _ _ => rfl⟩

theorem moves_stationLeaves (s : State) : s.Moves s.stationLeaves :=
  State.Moves.trans (b := { s with station := .idle, tin := none }) ⟨rfl, fun _ _ => rfl⟩ (serves_examinePark _).moves

theorem moves_startTransfer (s : State) (m : MixerId) (t : TinCtx) : s.Moves (s.startTransfer m t) :=
  (moves_setMixer s _ _).trans (serves_send _ _).moves

theorem moves_examineTransfer (s : State) : s.Moves s.examineTransfer := by
  unfold State.examineTransfer
  split
  · exact .refl s
  · split
    · split
      · exact moves_startTransfer s _ _
      · split
        · exact moves_startTransfer s _ _
        · exact .refl s
    · exact .refl s

theorem moves_releaseSource (s : State) (src : Source) : s.Moves (s.releaseSource src) := by
  cases src
  · exact (moves_setMixer s _ _).trans (moves_examineTransfer _)
  · exact (moves_setMixer s _ _).trans (moves_examineTransfer _)
  · exact moves_stationLeaves s

theorem moves_examineLidder (s : State) : s.Moves s.examineLidder := by
  unfold State.examineLidder
  split
  · split
    · exact .refl s
    · split
      · exact .refl s
      · split
        · exact .refl s
        · refine State.Moves.trans (State.Moves.trans ?_ (serves_send _ _).moves) (moves_releaseSource _ _)
          exact ⟨rfl, fun _ _ => rfl⟩
  · exact .refl s

theorem moves_joinClaim (s : State) (src : Source) : s.Moves (s.joinClaim src) := by
  unfold State.joinClaim
  dsimp only
  refine State.Moves.trans ?_ (moves_examineLidder _)
  exact ⟨rfl, fun _ _ => rfl⟩

end Sys2Proof.Machine
end

