-- ==== Sys2Proof/Tests/Slice0.lean ====
section
/-! SUPPORT. Tests. The figures are the manual's own (sections 1.11, 2.5, 6.8, 7.7, 9.3, 10.6, 10.7 and Chapter 12) or
worked from its rules by hand. Part 1: ill-formed operands and commands on small states. Part 2: for each
statement with hypotheses, a state and operands that meet them, clause by clause, at the ends of their ranges. -/

namespace Sys2Proof.Tests

open Sys2Proof Sys2Proof.Machine

/-! ### Small states -/

/-- Text from character codes. -/
def txt (l : List Nat) : Text := l.map byte

def codeOXR : Text := txt [0x4F, 0x58, 0x52]
def codeBLK : Text := txt [0x42, 0x4C, 0x4B]
/-- Lot ids "K1984-A " and "B0411-C " (section 12.1). -/
def lotK : Text := txt [0x4B, 0x31, 0x39, 0x38, 0x34, 0x2D, 0x41, 0x20]
def lotB : Text := txt [0x42, 0x30, 0x34, 0x31, 0x31, 0x2D, 0x43, 0x20]
/-- Lot id "K2207-B ". -/
def lotNew : Text := txt [0x4B, 0x32, 0x32, 0x30, 0x37, 0x2D, 0x42, 0x20]
/-- Class code "25". -/
def cls25 : Text := txt [0x32, 0x35]
/-- Base code "BASE". -/
def baseW : Text := txt [0x42, 0x41, 0x53, 0x45]

/-- P3's record in section 12.1. -/
def oxr : CanRecord :=
  { installed := true, code := codeOXR, capacity := 2000000000, heel := 50000000, lowMark := 100000000, q := 1300
    density := 1450, stroke := 3000, pulse := 0, dwell := 150, settleLimit := 60, recircTime := 30, keepStir := 10
    level := 160000000, lot := lotK, count := 500 }

/-- P9's record in section 12.1. -/
def blk : CanRecord :=
  { oxr with code := codeBLK, capacity := 1000000000, heel := 20000000, lowMark := 50000000, q := 900, density := 1180
             stroke := 2000, pulse := 200, level := 80000000, lot := lotB, count := 200 }

/-- A READY canister with its settle timer from full and its latch armed. -/
def ready (r : CanRecord) : Canister :=
  { kept := r, state := .ready, latch := true, demand := false, settleTimer := some (r.settleLimit * 60000)
    keepTimer := none, stirrer := false }

/-- The line before the first order (section 12.1), the queues of its ports empty and no job yet. -/
def line0 : State :=
  let s : State := ((State.reset.setCan 3 (ready oxr)).setCan 9 (ready blk)).setPump 3 { charge := 1200, state := .idle }
  { s.setPump 9 { charge := 2000, state := .idle } with
    ports := Vector.replicate 4 PortState.start, sent := []
    classes := [{ code := cls25, fill := 2500, headroom := 150, mixTime := 180 }]
    store := { Store.empty with classes := [⟨{ code := cls25, fill := 2500, headroom := 150, mixTime := 180 }, true⟩] }
    line := { mode := .run, guard := none, settings := { Settings.default with quota := 2 } } }

/-- A port whose hold has one request and which has no answer out. -/
def ask (s : State) (p : Port) (k : ReqKind) (tag : Byte) (body : Bytes) : State :=
  s.setPort p { s.port p with hold := [⟨k, tag, body⟩], out := [] }

/-- The request asked is taken now. -/
theorem takes_ask {s : State} {p : Port} {k : ReqKind} {tag : Byte} {body : Bytes} (h : s.power = .on) :
    (ask s p k tag body).Takes p k tag body := by
  unfold ask; exact ⟨h, by simp, by simp⟩

/-- The state a command leaves, or the same state if it stops. -/
def after (i : Instr) (s : State) : State :=
  match exec i s with
  | .next t => t
  | .fault _ => s
  | .refused _ => s

/-- The newest answer out on a port. -/
def lastAnswer (s : State) (p : Port) : Option (Byte × Byte × Bytes) :=
  (s.port p).out.getLast?.map fun a => (a.kind, a.tag, a.body)

/-- The two components of the batch of section 1.11, with nothing reserved. -/
def compO : Component :=
  { pos := 3, code := codeOXR, amount := txt [0x32, 0x34, 0x36, 0x31, 0x35, 0x20, 0x20], scale := 4, a := 2462
    exact := 6155000000, qSnap := 1300, cum := 0, substep := false, lotSnap := lotK, reserved := 0, lotBreak := false }
def compB : Component :=
  { pos := 9, code := codeBLK, amount := txt [0x31, 0x33, 0x30, 0x20, 0x20, 0x20, 0x20], scale := 3, a := 130
    exact := 325000000, qSnap := 900, cum := 0, substep := false, lotSnap := lotB, reserved := 0, lotBreak := false }

/-- The batch of section 1.11 at its admission from A. -/
def batch : Job :=
  { owner := .a, orderRef := spaces 12, colour := spaces 16, base := baseW, cls := cls25, vref := 1000, n := 3
    comps := [{ compO with reserved := 14204 }, { compB with reserved := 1083 }]
    dSubstep := .stop, dWeighOut := .stop, dWeighNone := .mark, dLotBreak := .mark, shortage := .wait, state := .ready
    counted := 0, started := 0, delivered := 0, expiries := 0, pendingRe := none, cause := none
    results := [1, 2, 3].map fun i =>
      { index := i, outcome := .pending, attempts := 0, steps := none, expected := none, net := none, marks := none
        lane := none } }

/-- Handle 0/1. -/
def h0 : Handle := ⟨0, 1⟩

/-- The line with one job in slot 0. -/
def withJob (j : Job) : State := line0.setSlot 0 { gen := 1, job := some j }

/-- The batch admitted, in the queue. -/
def admitted : State := { withJob batch with queue := [h0] }

/-- Tin 1 of the batch in TARING. -/
def tin1 : TinCtx :=
  { handle := h0, index := 1, stop := .none, stage := .taring, steps := [4735, 361], dispensed := [0, 0], tare := none
    gross := none, net := none, expected := none, route := .normal, marks := Marks.none, word := none }

/-- The batch ACTIVE with tin 1 started. -/
def running : Job := { batch with state := .active, started := 1 }

/-- Tin 1 at the station, in a station state and a stage. -/
def atStation (st : StationState) (g : Stage) : State :=
  { withJob running with station := st, tin := some { tin1 with stage := g }, queue := [h0] }

/-- The SUBMIT body of section 12.2, step 1. -/
def submitBytes : Bytes :=
  spaces 12 ++ spaces 16 ++ baseW ++ cls25 ++ be 2 1000 ++ [3, 1, 1, 0, 0, 0, 2] ++
    codeOXR ++ compO.amount ++ [4] ++ codeBLK ++ compB.amount ++ [3]

/-- The INSTALL body of a record at P0. -/
def installBytes (r : CanRecord) : Bytes :=
  0 :: (r.code ++ be 4 r.capacity ++ be 4 r.heel ++ be 4 r.lowMark ++ be 2 r.q ++ be 2 r.density ++ be 2 r.stroke ++
    be 2 r.pulse ++ be 2 r.dwell ++ [byte r.settleLimit] ++ be 2 r.recircTime ++ [byte r.keepStir] ++ be 4 r.level ++
    r.lot)

/-! ### Part 1: ill-formed operands, one for each check of WellFormed -/

theorem test_body_of_241_is_ill_formed : (Instr.status .a 0 (List.replicate 241 0)).wf = false := by decide +kernel
theorem test_body_of_240_is_well_formed : (Instr.status .a 0 (List.replicate 240 0)).wf = true := by decide +kernel
theorem test_frame_body_of_241_is_ill_formed :
    (Instr.frameReceived .a 1 0 (List.replicate 241 0) 0).wf = false := by decide +kernel
theorem test_mass_above_limit_is_ill_formed : (Instr.reading 100000001 true false).wf = false := by decide
theorem test_scan_class_of_three_is_ill_formed : (Instr.scan (spaces 3) (spaces 4)).wf = false := by decide
theorem test_scan_base_of_three_is_ill_formed : (Instr.scan (spaces 2) (spaces 3)).wf = false := by decide
theorem test_length_byte_240_is_ill_formed : (Instr.lengthByteAbove240 .a 240).wf = false := by decide
theorem test_store_key_of_three_is_ill_formed : (Instr.powerLoss (some (.tinClass (spaces 3)))).wf = false := by
  decide
theorem test_reset_key_of_one_is_ill_formed : (Instr.resetAssert (some (.tinClass (spaces 1)))).wf = false := by
  decide
theorem test_no_word_spells_a_command : decodeTableWord 8 1 = none := rfl

/-! ### Formula arithmetic: section 1.11 -/

theorem test_normalise_rounds_half_up : normalise 24615 4 = 2462 ∧ normalise 130 3 = 130 ∧ normalise 5 1 = 500 := by
  decide
theorem test_target_of_component_one : exactTarget 2462 2500 = 6155000000 := by decide
theorem test_cumulative_counts_of_component_one :
    [0, 1, 2, 3].map (fun k => cumSteps k 6155000000 1300000) = [0, 4735, 9469, 14204] := by decide
theorem test_cumulative_counts_of_component_two :
    [0, 1, 2, 3].map (fun k => cumSteps k 325000000 900000) = [0, 361, 722, 1083] := by decide
theorem test_expected_mass_of_tins :
    expectedMass line0 [4735, 361] batch.comps = 9309 ∧ expectedMass line0 [4734, 361] batch.comps = 9307 := by decide
theorem test_amount_fields :
    parseAmount compO.amount = some 24615 ∧ parseAmount (spaces 7) = none ∧
      parseAmount (txt [0x31, 0x20, 0x32, 0x20, 0x20, 0x20, 0x20]) = none := by decide
theorem test_substep_of_section_1_12 : isSubstep 12 1 500000 1300000 = true ∧ isSubstep 0 0 0 1300000 = false := by
  decide

/-! ### Frames: the check value of CRC-16/CCITT-FALSE (R161) -/

theorem test_crc_of_123456789 : crc16 (txt [0x31, 0x32, 0x33, 0x34, 0x35, 0x36, 0x37, 0x38, 0x39]) = 0x29B1 := by
  decide +kernel

/-! ### Jobs: sections 12.2 to 12.5 -/

theorem test_submit_of_step_1 :
    lastAnswer (after (.submit .a 7 submitBytes) (ask line0 .a .submit 7 submitBytes)) .a =
      some (0x81, 7, [0, 0, 0, 0, 1, 2, 0, 0]) := by decide
theorem test_submit_reserves_and_calls :
    let t := after (.submit .a 7 submitBytes) (ask line0 .a .submit 7 submitBytes)
    t.freeVol 3 = 91534800 ∧ t.freeVol 9 = 59025300 ∧ t.quota = 1 ∧ t.station = .calling := by decide
theorem test_cancel_releases_all :
    (after (.cancel .a 1 [0, 1]) (ask admitted .a .cancel 1 [0, 1])).freeVol 3 = 110000000 := by decide
theorem test_resume_of_a_ready_job_is_refused_state :
    lastAnswer (after (.resume .a 1 [0, 1]) (ask admitted .a .resume 1 [0, 1])) .a = some (0x83, 1, [6, 0, 0]) := by
  decide
theorem test_retire_advances_the_generation :
    ((after (.retire .a 1 [0, 1]) (ask (withJob { batch with state := .done }) .a .retire 1 [0, 1])).slot 0) =
      { gen := 2, job := none } := by decide
theorem test_read_job_of_another_owner_is_not_owner :
    lastAnswer (after (.readJob .b 1 [0, 1, 0]) (ask admitted .b .readJob 1 [0, 1, 0])) .b =
      some (0x85, 1, [5, 0, 0]) := by decide
theorem test_read_tin_past_the_last_is_range :
    lastAnswer (after (.readTin .a 1 [0, 1, 4]) (ask admitted .a .readTin 1 [0, 1, 4])) .a =
      some (0x86, 1, [3, 2, 0]) := by decide

/-! ### Canisters: section 2.5 and the figures of R35 -/

theorem test_install_clamps_the_level :
    let b := installBytes { oxr with code := txt [0x57, 0x48, 0x54], level := 3000000000 }
    ((after (.install .w 1 b) (ask line0 .w .install 1 b)).can 0).kept.level = 2000000000 := by decide
theorem test_remove_of_a_named_canister_is_covered :
    lastAnswer (after (.remove .w 1 [3]) (ask admitted .w .remove 1 [3])) .w = some (0x88, 1, [0x10, 0, 0]) := by decide
theorem test_calibrate_covered_and_taken :
    let s := (withJob { batch with comps := [{ compO with reserved := 9469 }] }).setCan 3
      (ready { oxr with level := 150000000 })
    lastAnswer (after (.calibrate .w 1 (3 :: be 2 11000 ++ be 2 1450))
      (ask s .w .calibrate 1 (3 :: be 2 11000 ++ be 2 1450))) .w = some (0x89, 1, [0x10, 0, 0]) ∧
    ((after (.calibrate .w 1 (3 :: be 2 10000 ++ be 2 1450))
      (ask s .w .calibrate 1 (3 :: be 2 10000 ++ be 2 1450))).can 3).kept.q = 10000 := by decide
theorem test_adjust_stale_of_step_2 :
    let s := line0.setCan 3 (ready { oxr with level := 153844500, count := 412 })
    lastAnswer (after (.adjust .w 1 (3 :: be 2 411 ++ be 4 150000000))
      (ask s .w .adjust 1 (3 :: be 2 411 ++ be 4 150000000))) .w =
      some (0x8C, 1, [0x0F, 0, 0] ++ be 2 412 ++ be 4 153844500) := by decide
theorem test_adjust_disarms_of_step_3 :
    let s := line0.setCan 3 (ready { oxr with level := 153844500, count := 412 })
    let t := after (.adjust .w 1 (3 :: be 2 412 ++ be 4 150000000)) (ask s .w .adjust 1 (3 :: be 2 412 ++ be 4 150000000))
    (t.can 3).latch = false ∧ (t.port .w).notices = [.canisterLow 3 100000000] := by decide
theorem test_refill_begin_locks :
    ((after (.refillBegin .w 1 [3]) (ask line0 .w .refillBegin 1 [3])).can 3).state = .locked := by decide
theorem test_refill_end_of_step_5 :
    let s := line0.setCan 3 { ready { oxr with level := 150000000, count := 413 } with state := .locked, settleTimer := none }
    lastAnswer (after (.refillEnd .w 1 (3 :: be 4 1900000000 ++ lotNew))
      (ask s .w .refillEnd 1 (3 :: be 4 1900000000 ++ lotNew))) .w =
      some (0x8B, 1, [0, 0, 0, 3] ++ be 4 1850000000 ++ be 4 2000000000 ++ be 2 414 ++ [1]) := by decide
theorem test_read_canister_of_a_vacant_position :
    ((lastAnswer (after (.readCanister .a 1 [15]) (ask line0 .a .readCanister 1 [15])) .a).map fun x => x.2.2.take 9) =
      some [0, 0, 0, 15, 0, 0, 0x20, 0x20, 0x20] := by decide

/-! ### Classes, settings, line, queries -/

theorem test_set_class_in_use_is_covered :
    let b : Bytes := 0 :: (cls25 ++ be 2 2500 ++ be 2 150 ++ be 2 180)
    lastAnswer (after (.setTinClassSet .w 1 b) (ask admitted .w .setTinClass 1 b)) .w = some (0x8E, 1, [0x10, 0, 0]) := by
  decide
theorem test_delete_class :
    (after (.setTinClassDelete .w 1 (1 :: cls25)) (ask line0 .w .setTinClass 1 (1 :: cls25))).classes = [] := by decide
/-- The example of R153. -/
theorem test_set_line_clamps :
    let b := be 2 5 ++ [30] ++ be 2 2500 ++ be 2 500 ++ be 2 9000 ++ [15]
    (after (.setLine .w 1 b) (ask line0 .w .setLine 1 b)).line.settings =
      { callTimeout := 10, quota := 20, scaleSettle := 2500, weighFloor := 500, absTol := 5000, relTol := 15 } := by decide
theorem test_park_of_an_idle_line :
    (after (.lineModePark .b 1 [0]) (ask line0 .b .lineMode 1 [0])).line.mode = .parked := by decide
theorem test_wake_of_a_parked_line :
    let s : State := { line0 with line := { line0.line with mode := .parked } }
    (after (.lineModeWake .b 1 [1]) (ask s .b .lineMode 1 [1])).line.mode = .run := by decide
theorem test_resume_line_with_the_guard_open_is_refused :
    let s : State := { line0 with line := { line0.line with mode := .halted, guard := some .opened } }
    lastAnswer (after (.resumeLine .a 1 []) (ask s .a .resumeLine 1 [])) .a = some (0x91, 1, [6, 0, 0]) := by decide
theorem test_mixer_return_of_an_idle_mixer_is_refused :
    lastAnswer (after (.mixerReturn .a 1 [2]) (ask line0 .a .mixerReturn 1 [2])) .a = some (0x92, 1, [6, 0, 0]) := by
  decide
theorem test_find_lowest_usable_below :
    let b : Bytes := [0, 1, 2] ++ be 4 70000000 ++ be 8 0 ++ [0, 0]
    ((lastAnswer (after (.find .a 1 b) (ask line0 .a .find 1 b)) .a).map fun x => x.2.2.take 6) =
      some [0, 0, 0, 1, 9, 2] := by decide
theorem test_status_has_168_bytes :
    ((lastAnswer (after (.status .a 1 []) (ask line0 .a .status 1 [])) .a).map fun x => x.2.2.length) = some 171 := by
  decide +kernel
theorem test_fetch_notice_at_reset :
    lastAnswer (after (.fetchNotice .a 1 []) (ask State.reset .a .fetchNotice 1 [])) .a =
      some (0x95, 1, [0, 0, 0, 1, 0, 0, 11, 1, 2, 0, 1]) := by decide
theorem test_clear_port_frees_final_jobs :
    lastAnswer (after (.clearPort .a 1 []) (ask (withJob { batch with state := .cancelled }) .a .clearPort 1 [])) .a =
      some (0x96, 1, [0, 0, 0, 0, 1, 0, 1] ++ List.replicate 46 0) := by decide +kernel

/-! ### Ports: sections 10.6 and 10.7 -/

/-- The hold full and an answer out: the third frame earns OVERRUN with its kind and tag. -/
theorem test_third_frame_is_overrun :
    let s := line0.setPort .a { PortState.start with hold := [⟨.status, 22, []⟩, ⟨.cancel, 24, [0, 1]⟩] }
    lastAnswer (after (.frameReceived .a 0x06 25 [0, 1, 1] (frameCrc 0x06 25 [0, 1, 1])) s) .a =
      some (0x86, 25, [0x12, 0, 0]) := by decide +kernel
theorem test_damaged_crc_is_frame_error :
    lastAnswer (after (.frameReceived .a 0x15 23 [] (frameCrc 0x15 23 [] + 1)) line0) .a =
      some (0xFF, 0, [0x13, 0, 0]) := by decide +kernel
theorem test_start_byte_begins_a_frame :
    ((after (.frameStartByte .a) line0).port .a).rx = [0x7E] := by decide
theorem test_long_length_byte_is_frame_error :
    lastAnswer (after (.lengthByteAbove240 .a 241) (after (.frameStartByte .a) line0)) .a =
      some (0xFF, 0, [0x13, 0, 0]) := by decide
theorem test_gap_discards_without_answer :
    (after (.frameGapTimeout .a) (after (.frameStartByte .a) line0)).port .a = PortState.start := by decide
theorem test_answer_sent_takes_the_oldest :
    ((after (.answerSent .a) (line0.setPort .a { PortState.start with
      out := [frameErrorAnswer, requestAnswer .status 22 []] })).port .a).out = [requestAnswer .status 22 []] := by decide
/-- Steps 1 and 3 of section 10.6: the oldest level-1 notice is dropped, then the oldest of level 2 is fetched. -/
theorem test_overflow_keeps_the_higher_level :
    let q := List.replicate 14 (Notice.line .run) ++ [.wrongTin cls25 baseW, .laneFull .lb]
    let s := line0.setPort .b { PortState.start with notices := q, attention := true }
    let t := s.notify .b (.jobState h0 .ready .stockGranted)
    (t.port .b).notices = List.replicate 13 (Notice.line .run) ++
      [.wrongTin cls25 baseW, .laneFull .lb, .jobState h0 .ready .stockGranted] ∧
    lastAnswer (after (.fetchNotice .b 1 []) (ask t .b .fetchNotice 1 [])) .b =
      some (0x95, 1, [0, 0, 0, 1, 1, 15] ++ noticeRecord (.wrongTin cls25 baseW)) := by decide

/-! ### The head: section 6.8 -/

/-- Tin 1 in DISPENSING as after step 1 of section 6.8: D0 and D1 in BURST. -/
def bursting : State :=
  let s : State := ((atStation .dispensing .dispensing).setChan 0
    { comp := 0, pos := 3, remaining := 4735, burst := some 1200, state := .burst, dwellTimer := none }).setChan 1
    { comp := 1, pos := 9, remaining := 361, burst := some 200, state := .burst, dwellTimer := none }
  (s.setPump 3 { charge := 1200, state := .burst }).setPump 9 { charge := 2000, state := .burst }

theorem test_tare_starts_bursts_of_step_1 :
    let s : State := { atStation .taring .taring with capture := .tare, scaleTimer := some 3000, gateOpen := true }
    (after (.reading 3412600 true false) s).sent = [.burst 3 1200, .burst 9 200] := by decide
theorem test_unstable_reading_is_discarded :
    let s : State := { atStation .taring .taring with capture := .tare, scaleTimer := some 3000 }
    (after (.reading 3412600 false false) s).capture = .tare := by decide
theorem test_burst_done_of_step_2 :
    let t := after (.burstDone 9 200) bursting
    (t.can 9).kept.level = 79820000 ∧ (t.chan 1).state = .dwell ∧ (t.chan 1).remaining = 161 ∧
      t.reservedSteps 9 = 883 := by decide
theorem test_burst_done_of_step_4_charges :
    let t := after (.burstDone 3 1200) bursting
    (t.can 3).kept.level = 158440000 ∧ (t.chan 0).state = .waitCharge ∧ t.sent = [.charge 3] := by decide
theorem test_dwell_expiry_of_step_3 :
    let t := after (.dwellTimerExpiry 1) (after (.burstDone 9 200) bursting)
    (t.chan 1).burst = some 161 ∧ t.sent = [.burst 9 161] := by decide
theorem test_charge_done_of_step_6 :
    let t := after (.chargeDone 3) (after (.burstDone 3 1200) bursting)
    (t.chan 0).burst = some 3000 ∧ (t.pump 3).charge = 3000 := by decide
theorem test_recirc_done_makes_ready :
    let s := (line0.setCan 3 { ready oxr with state := .recirc, settleTimer := none, stirrer := true }).setPump 3
      { charge := 0, state := .recirc }
    let t := after (.recircDone 3) s
    (t.can 3).state = .ready ∧ (t.pump 3).charge = 3000 := by decide
/-- Section 12.5, steps 12 and 13: the guard opens in the burst, and the report spoils the attempt. -/
theorem test_halt_report_spoils_the_attempt :
    let t := after (.haltReport 3 200) (after (.haltReport 9 0) (after .guardOpened bursting))
    t.station = .handoff ∧ (t.tin.map fun x => (x.route, x.word)) = some (.reject, some .spoiled) ∧
      t.reservedSteps 3 = 14204 ∧ t.sent = [.halt] := by decide
theorem test_guard_closed_sets_the_flag :
    (after .guardClosed (after .guardOpened line0)).line.guard = some .closed := by decide
theorem test_dispensing_end_starts_the_drip :
    let s := bursting.setChan 1 { comp := 1, pos := 9, remaining := 0, burst := none, state := .done, dwellTimer := none }
    let s := s.setChan 0 { comp := 0, pos := 3, remaining := 1200, burst := some 1200, state := .burst, dwellTimer := none }
    (after (.burstDone 3 1200) s).dripTimer = some 400 := by decide
theorem test_drip_expiry_expects_9309 :
    let s : State := { atStation .drip .drip with dripTimer := some 0 }
    ((after .dripTimerExpiry s).tin.bind fun t => t.expected) = some 9309 := by decide

/-! ### Weigh check: section 7.7 -/

/-- Tin 1 in WEIGHING with its tare of section 7.7. -/
def weighing : State :=
  { atStation .weighing .weighing with
    capture := .gross, scaleTimer := some 3000
    tin := some { tin1 with stage := .weighing, tare := some 3412600, expected := some 9309, dispensed := [4735, 361] } }

theorem test_gross_of_step_6_passes :
    let t := after (.reading 3422002 true false) weighing
    ((t.job? h0).map fun j => (j.counted, j.comps.map (·.cum))) = some (1, [4735, 361]) ∧ t.sent = [.transfer .m1] := by
  decide
theorem test_gross_of_the_alternative_is_rejected :
    let t := after (.reading 3422130 true false) weighing
    ((t.job? h0).map fun j => (j.counted, j.state, j.cause, j.pendingRe)) =
      some (0, .suspended, some .weighStop, some [4735, 361]) := by decide
theorem test_scale_timeout_is_weigh_none :
    ((after .scaleSettleTimeout weighing).m1.expected, (after .scaleSettleTimeout weighing).tin.map (·.marks.n)) =
      (some (h0, 1), some true) := by decide

/-! ### Calls, mixers, lidder, lanes, timers, power -/

/-- Tin 1 of the batch called. -/
def calling : State :=
  { withJob { batch with state := .active } with
    station := .calling, call := some ⟨h0, 1, cls25, baseW⟩, callTimer := some 120000, queue := [h0], quota := 1 }

theorem test_matching_scan_opens_the_gate :
    let t := after (.scan cls25 baseW) calling
    t.gateOpen = true ∧ t.station = .taring ∧ (t.tin.map (·.steps)) = some [4735, 361] := by decide
theorem test_wrong_scan_notifies_the_owner :
    ((after (.scan cls25 (spaces 4)) calling).port .a).notices = [.wrongTin cls25 (spaces 4)] := by decide
theorem test_third_expiry_suspends :
    let s := calling.setSlot 0 { gen := 1, job := some { batch with state := .active, expiries := 2 } }
    ((after .callTimerExpiry s).job? h0).map (fun j => (j.state, j.cause)) = some (.suspended, some .callExpired) := by
  decide
/-- A mixer that mixes tin 1. -/
def mixing : State := { withJob running with m1 := { state := .mixing, tin := some tin1, expected := none, timer := some 180000 } }

theorem test_loaded_starts_the_mix_timer :
    let s : State := { atStation .handoff .mixWait with
      m1 := { Mixer.idle with state := .loading, expected := some (h0, 1) } }
    (after (.loaded .m1) s).m1.timer = some 180000 := by decide
theorem test_mix_expiry_hands_the_tin_to_the_lidder :
    let t := after (.mixTimerExpiry .m1) mixing
    t.lidder.state = .lidding ∧ t.lidder.dest = some .la ∧ t.m1 = Mixer.idle := by decide
theorem test_clamp_fault_keeps_the_tin :
    let t := after (.clampFault .m1) mixing
    t.m1.state = .out ∧ t.m1.tin = some tin1 ∧ (t.port .w).notices = [.mixerFault .m1 (some (h0, 1))] := by decide
/-- A lidder with tin 1 and its LIDDED awaited. -/
def lidding : State :=
  { withJob { running with counted := 1 } with
    lidder := { state := .lidding, tin := some { tin1 with stage := .lidding }, label := none, dest := some .la
                cmdOut := true, claims := [] } }

theorem test_lidded_places_the_tin :
    let t := after .lidded lidding
    t.lanes.la = 1 ∧ (t.port .a).notices.head? = some (.tinOut h0 1 .la Marks.none) := by decide
theorem test_lidded_waits_for_a_full_lane :
    let t := after .lidded { lidding with lanes := { la := 6, lb := 0, lc := 0, lx := 0 } }
    t.lidder.state = .laneWait ∧ (t.port .a).notices = [.laneFull .la] := by decide
theorem test_tin_taken_at_zero_stays_zero : (after (.tinTaken .lx) line0).lanes.lx = 0 := by decide
theorem test_settle_expiry_by_mode :
    ((after (.settleTimerExpiry 3) line0).can 3).state = .stirring ∧
    ((after (.settleTimerExpiry 3) { line0 with line := { line0.line with mode := .parked } }).can 3).state = .settled := by
  decide
theorem test_keep_stir_expiry_makes_ready :
    let t := after (.keepStirTimerExpiry 3) (after (.settleTimerExpiry 3) line0)
    (t.can 3).state = .ready ∧ (t.can 3).settleTimer = some 3600000 := by decide
theorem test_power_loss_breaks_the_copy_being_written :
    (after (.powerLoss (some (.tinClass cls25))) line0).store.classes.map (·.intact) = [false] := by decide
theorem test_start_discards_a_broken_copy :
    let t := after .partStart (after (.powerLoss (some (.tinClass cls25))) line0)
    t.classes = [] ∧ (t.port .c).notices = [.start 1 .run] := by decide
theorem test_reset_drops_notices :
    let t := after (.resetAssert none) State.reset
    t.power = .reset ∧ (t.port .b).attention = false ∧ (t.port .b).notices = [] := by decide

/-! ### Part 2: the hypotheses of the statements are met -/

/-- No job in any slot of the line before the first order. -/
theorem line0_jobs : ∀ i, (line0.slot i).job = none := by decide

theorem line0_cans : ∀ p : Pos, line0.can p = Canister.vacant ∨ line0.can p = ready oxr ∨ line0.can p = ready blk := by
  decide

/-- A part held in RESET. -/
def held : State := { line0 with power := .reset }

/-- A part without power, the guard opened. -/
def dark : State := State.dark .opened Store.empty []

theorem witness_EmptyQueueStepPassesOneMillisecond :
    (held.pending = [] ∧ held.power ≠ .on) ∧ (line0.pending = [] ∧ line0.power = .on) := by decide

theorem witness_PartStartReadsTheStore :
    line0.power = .on ∧ (held.power ≠ .on ∧ held.guardInput = .closed) ∧ dark.power ≠ .on ∧ dark.guardInput = .opened ∧
      ((after .partStart held).can 3).kept.installed = false := by decide

theorem witness_ResetAndPowerLossKeepTheStore :
    held.power ≠ .on ∧ line0.power = .on ∧ dark.power = .off ∧ line0.power ≠ .off := by decide

theorem witness_InactivePartTakesNothing :
    held.power ≠ .on ∧ (Instr.status .a 1 []).wf = true ∧ Instr.status .a 1 [] ≠ .partStart ∧
      (∀ w, Instr.status .a 1 [] ≠ .powerLoss w) ∧ Instr.status .a 1 [] ≠ .guardOpened ∧
      Instr.status .a 1 [] ≠ .guardClosed :=
  ⟨by decide, by decide, by decide, nofun, by decide, by decide⟩

theorem witness_OperandsNoLineCarriesAreRefused :
    240 < (List.replicate 241 (0 : Byte)).length ∧ 100000000 < 100000001 ∧
      ¬ ((spaces 2).length = 2 ∧ (spaces 3).length = 4) ∧ (240 : Byte).toNat ≤ 240 := by decide +kernel

theorem witness_CumulativeCountWithinHalfStep :
    ({ batch with comps := [{ compO with cum := 4735 }], counted := 1 } : Job).CumOk ∧
      { compO with cum := 4735 } ∈ [{ compO with cum := 4735 }] ∧ 0 < compO.qSnap * batch.vref := by
  unfold Job.CumOk; decide

theorem witness_TinStepCountIsFloorOrOneMore :
    batch.comps[1]? = some { compB with reserved := 1083 } ∧ batch.nextSteps[1]? = some 361 ∧
      0 < compB.qSnap * batch.vref := by decide

theorem witness_FrameBytesAreExaminedAsTheFrame :
    (line0.port .a).rx = [] ∧ (List.replicate 240 (0x7E : Byte)).length ≤ 240 := by decide +kernel

theorem witness_NumberFieldsReadBack : 0 < 256 ^ 0 ∧ 65535 < 256 ^ 2 := by decide

theorem witness_StepsKeepPortsWithinBounds :
    State.reset.PortsOk ∧ step State.reset = .next State.reset.tick :=
  ⟨fun p => by cases p <;> constructor <;> decide, rfl⟩

theorem witness_StepsKeepJobTableAndQueueLaws :
    step admitted = .next admitted.tick ∧ admitted.GensOk ∧ admitted.PoolOk ∧ admitted.QueueOk :=
  ⟨rfl, by unfold State.GensOk; decide, by unfold State.PoolOk; decide, by unfold State.QueueOk; decide⟩

theorem witness_StepsKeepLineAndLanesLawful : step line0 = .next line0.tick ∧ line0.line.Ok ∧ line0.LanesOk :=
  ⟨rfl, by constructor <;> decide, fun x => by cases x <;> decide⟩

theorem line0_cansOk : line0.CansOk := fun p => by
  rcases line0_cans p with h | h | h <;> rw [h]
  · exact ⟨⟨by decide, by decide, by decide, by decide, by decide, by decide, fun h => absurd h (by decide)⟩,
      by unfold Canister.StirrerOk; decide⟩
  · exact ⟨⟨by decide, by decide, by decide, by decide, by decide, by decide, fun _ => by constructor <;> decide⟩,
      by unfold Canister.StirrerOk; decide⟩
  · exact ⟨⟨by decide, by decide, by decide, by decide, by decide, by decide, fun _ => by constructor <;> decide⟩,
      by unfold Canister.StirrerOk; decide⟩

theorem line0_pumpsOk : line0.PumpsOk := by unfold State.PumpsOk; decide

theorem job_admitted : admitted.job? h0 = some batch := by decide

theorem admitted_tin : admitted.tin = none := rfl

theorem admitted_call : admitted.call = none := rfl

theorem admitted_mixer (m : MixerId) : admitted.mixer m = Mixer.idle := by cases m <;> rfl

theorem admitted_stationOk : admitted.StationOk where
  call := by decide
  callTimer := by decide
  tin := by decide
  stage t h := by rw [admitted_tin] at h; cases h
  drip := by decide
  tare := by decide
  gross := by decide
  scale := by decide
  halted := by decide

theorem admitted_stopOk : admitted.StopOk where
  guard t h := by rw [admitted_tin] at h; cases h
  cancel t h := by rw [admitted_tin] at h; cases h
  reject t h := by rw [admitted_tin] at h; cases h

theorem admitted_mixersOk : admitted.MixersOk where
  each m := by
    rw [admitted_mixer]
    exact ⟨by decide, by decide, by decide, by decide, fun _ h => (by cases h), fun _ h => (by cases h),
      fun _ h => (by cases h)⟩
  one := by decide
  loading m h := by rw [admitted_mixer] at h; cases h

theorem admitted_lidderOk : admitted.LidderOk where
  tin := by decide
  label := by decide
  dest := by decide
  command := by decide
  stage t h := by rw [show admitted.lidder = Lidder.start from rfl] at h; cases h
  nodup := by decide
  mixers m := by rw [admitted_mixer]; cases m <;> decide
  station := by rw [admitted_tin]; simp only [reduceCtorEq, false_and, exists_false, and_false, iff_false]; decide

theorem admitted_batch {i : Fin 24} {j : Job} (h : (admitted.slot i).job = some j) : i = 0 ∧ j = batch := by
  have h1 : ∀ k : Fin 24, (admitted.slot k).job = if k = 0 then some batch else none := by decide
  rw [h1 i] at h
  split at h
  · exact ⟨‹_›, (Option.some.inj h).symm⟩
  · cases h

theorem admitted_waits (p : Pos) : admitted.waitList p = [] := by revert p; decide

theorem admitted_jobOk : admitted.JobOk ⟨0, (admitted.slot 0).gen⟩ batch :=
  ⟨by decide, by decide, by decide, by decide, by decide, by decide, by decide⟩

theorem admitted_jobsOk : admitted.JobsOk where
  queued := ⟨by decide, fun h hh => by
    rw [List.mem_singleton.1 (show h ∈ [h0] from hh)]; exact ⟨batch, job_admitted, by decide, by decide⟩⟩
  waiting p := by rw [admitted_waits]; exact ⟨List.nodup_nil, fun h hh => absurd hh List.not_mem_nil⟩
  listed i j h hw := by obtain ⟨rfl, rfl⟩ := admitted_batch h; cases hw
  once p q h hp := by rw [admitted_waits] at hp; cases hp
  called c h := by rw [admitted_call] at h; cases h
  tins x h := by rw [show admitted.tins = [] from rfl] at h; cases h
  rejected t j h := by rw [admitted_tin] at h; cases h
  each i j h := by obtain ⟨rfl, rfl⟩ := admitted_batch h; exact admitted_jobOk

theorem admitted_claim : admitted.ClaimOk ⟨0, (admitted.slot 0).gen⟩ batch where
  sizes l h := by cases h
  placed h := by cases h
  returned l i c h := by cases h
  held _ _ i c hc := by
    match i, hc with
    | 0, hc => cases hc; decide
    | 1, hc => cases hc; decide
  kept h := by cases h
  freed h := by rcases h with h | h <;> cases h

theorem admitted_stock : admitted.StockOk where
  heel := by unfold State.HeelOk; decide
  codes := by unfold State.CodesOk; decide
  reserve := by unfold State.ReserveOk; decide
  claims i j h := by obtain ⟨rfl, rfl⟩ := admitted_batch h; exact admitted_claim
  names i j h _ _ := by obtain ⟨rfl, rfl⟩ := admitted_batch h; exact ⟨by decide, by decide⟩
  tin t j h := by rw [admitted_tin] at h; cases h
  chans t j d h := by rw [admitted_tin] at h; cases h
  call c j h := by rw [admitted_call] at h; cases h
  burst := by decide
  recirc := by decide

theorem admitted_cum : admitted.CumOk := fun i j h => by
  obtain ⟨rfl, rfl⟩ := admitted_batch h; unfold Job.CumOk; decide

theorem admitted_lawful : admitted.Lawful where
  floor := ⟨admitted_stationOk, admitted_stopOk, ⟨by decide, by decide, by decide⟩, admitted_mixersOk, admitted_lidderOk⟩
  jobs := admitted_jobsOk
  stock := admitted_stock
  cans := line0_cansOk
  pumps := line0_pumpsOk
  cum := admitted_cum
  gens := by unfold State.GensOk; decide

theorem witness_StepsKeepCanistersAndPumpsLawful :
    admitted.CansOk ∧ admitted.PumpsOk ∧ admitted.CodesOk ∧ admitted.Lawful ∧ step admitted = .next admitted.tick :=
  ⟨line0_cansOk, line0_pumpsOk, admitted_stock.codes, admitted_lawful, rfl⟩

theorem witness_StepsKeepClassTableAndStoreAgreed : line0.ClassesOk ∧ step line0 = .next line0.tick :=
  ⟨⟨by decide, by decide, fun _ => by decide⟩, rfl⟩

theorem witness_StepsKeepCumulativeCounts :
    admitted.CansOk ∧ admitted.PumpsOk ∧ admitted.CumOk ∧ admitted.Lawful ∧ step admitted = .next admitted.tick :=
  ⟨line0_cansOk, line0_pumpsOk, admitted_cum, admitted_lawful, rfl⟩

theorem witness_JobsKeepWhatWasAdmitted :
    (admitted.slot 0).job = some batch ∧ step admitted = .next admitted.tick := ⟨by decide, rfl⟩

theorem witness_PortsStandApart :
    let i := Instr.clearPort .a 1 []
    exec i line0 = .next (after i line0) ∧ (∀ p f, requestOf i = some (p, f) → p ≠ .b) ∧
      (∀ kind tag body crc, i ≠ .frameReceived .b kind tag body crc) ∧ i ≠ .frameGapTimeout .b ∧ i ≠ .answerSent .b ∧
      i ≠ .frameStartByte .b ∧ (∀ len, i ≠ .lengthByteAbove240 .b len) ∧ (∀ w, i ≠ .resetAssert w) ∧
      (∀ w, i ≠ .powerLoss w) ∧ i ≠ .partStart :=
  ⟨rfl, fun p f h => by cases h; decide, nofun, by decide, by decide, by decide,
    nofun, nofun, nofun, by decide⟩

theorem kind_7F_is_no_request (k : ReqKind) : codeKind k ≠ 0x7F := by cases k <;> decide

theorem witness_FrameReceivedJoinsHoldOrEarnsError :
    line0.power = .on ∧ (List.replicate 240 (0 : Byte)).length ≤ 240 ∧
      ¬ [(0x7E : Byte), 5] <+: frameBytes 1 7 [] 0 ∧ (line0.port .a).rx <+: frameBytes 1 7 [] 0 ∧
      [(0x7E : Byte), 0, 1] <+: frameBytes 1 7 [] 0 ∧ codeKind .submit = 1 ∧
      (line0.port .a).hold.length < 2 ∧ 2 ≤ [(⟨.status, 1, []⟩ : Frame), ⟨.status, 2, []⟩].length ∧
      frameCrc 1 7 [] + 1 ≠ frameCrc 1 7 [] ∧ ∀ k, codeKind k ≠ 0x7F :=
  ⟨rfl, by decide +kernel, by decide +kernel, by decide +kernel, by decide +kernel, rfl, by decide, by decide,
    by decide +kernel, kind_7F_is_no_request⟩

/-- A port that has received some bytes. -/
def received (l : Bytes) : State := line0.setPort .a { PortState.start with rx := l, gap := some 20 }

theorem witness_ReceiverTakesBytesAndGaps :
    line0.power = .on ∧ (line0.port .a).rx = [] ∧ ((received [0x7E]).port .a).rx = [0x7E] ∧
      ((received [0x7E, 0]).port .a).rx = 0x7E :: 0 :: [] ∧ ([] : Bytes).length < (0 : Byte).toNat + 3 ∧
      ((received [0x7E, 0, 1, 2]).port .a).rx = 0x7E :: 0 :: [1, 2] ∧ [(1 : Byte), 2].length < (0 : Byte).toNat + 3 ∧
      ((received [0x7E, 0, 1, 2, 5]).port .a).rx ++ [0x7E] = frameBytes 1 2 [] 0x057E ∧
      240 < (241 : Byte).toNat ∧ ((received [0x7E, 0, 1, 2, 5]).port .a).rx ++ [241] = frameBytes 1 2 [] 0x05F1 := by
  decide

theorem witness_AnswersAreSentInOrder :
    line0.power = .on ∧ (line0.port .a).out = [] ∧
      ((line0.setPort .a { PortState.start with out := [frameErrorAnswer] }).port .a).out = frameErrorAnswer :: [] := by
  decide

theorem witness_RequestOutsideItsRoleIsAnsweredRole :
    requestOf (.retire .w 1 []) = some (.w, ⟨.retire, 1, []⟩) ∧ (ask line0 .w .retire 1 []).Takes .w .retire 1 [] ∧
      ReqKind.retire ∈ [ReqKind.submit, .cancel, .resume, .retire] ∧
      requestOf (.setLine .c 1 []) = some (.c, ⟨.setLine, 1, []⟩) ∧ (ask line0 .c .setLine 1 []).Takes .c .setLine 1 [] ∧
      Port.c ≠ .w ∧ ReqKind.setLine ∈ [ReqKind.install, .remove, .calibrate, .refillBegin, .refillEnd, .adjust,
        .setTinClass, .setLine] :=
  ⟨rfl, takes_ask rfl, by decide, rfl, takes_ask rfl, by decide, by decide⟩

theorem witness_RequestNotTakenChangesNothing :
    requestOf (.status .a 1 []) = some (.a, ⟨.status, 1, []⟩) ∧ ¬ line0.Takes .a .status 1 [] :=
  ⟨rfl, by unfold State.Takes; decide⟩

theorem witness_EveryTakenRequestIsAnsweredOnce :
    requestOf (.status .a 1 []) = some (.a, ⟨.status, 1, []⟩) ∧ (ask line0 .a .status 1 []).Takes .a .status 1 [] :=
  ⟨rfl, takes_ask rfl⟩

/-! #### Canister requests -/

/-- A record for P0 with its own code, its level at the heel, and another with its level below it. -/
def wht : CanRecord := { oxr with code := txt [0x57, 0x48, 0x54], level := 50000000, count := 0 }

theorem witness_InstallFillsAVacantPosition :
    (∀ r ∈ [wht, { wht with level := 49999999 }, { wht with code := codeOXR }],
      (ask line0 .w .install 1 (installBytes r)).Takes .w .install 1 (installBytes r) ∧ (installBytes r).length = 42 ∧
      u8 (installBytes r) 0 = (0 : Pos).val ∧ r = installRecord (installBytes r) ∧
      ((ask line0 .w .install 1 (installBytes r)).can 0).state = .vacant ∧ r.Declared ∧ printable r.code = true ∧
      blankText r.code = false ∧ printable r.lot = true) ∧
    (∃ q, (line0.can q).kept.installed = true ∧ (line0.can q).kept.code = codeOXR) ∧
    (∀ q, (line0.can q).kept.installed = true → (line0.can q).kept.code ≠ wht.code) ∧
    49999999 < wht.heel ∧ wht.heel ≤ wht.level := by
  refine ⟨fun r hr => ?_, by decide, by decide, by decide, by decide⟩
  simp only [List.mem_cons, List.not_mem_nil, or_false] at hr
  rcases hr with h | h | h <;> subst h <;>
    exact ⟨takes_ask rfl, by decide, by decide, by decide, by decide, by constructor <;> decide, by decide, by decide,
      by decide⟩

theorem witness_RemoveVacatesAPosition :
    (ask line0 .w .remove 1 [byte 3]).Takes .w .remove 1 [byte 3] ∧ (line0.can 0).state = .vacant ∧
      (line0.can 3).state ≠ .vacant ∧
      (∃ i j c, (admitted.slot i).job = some j ∧ j.state ≠ .done ∧ j.state ≠ .cancelled ∧ c ∈ j.comps ∧ c.pos = 3) ∧
      (∀ i j c, (line0.slot i).job = some j → j.state ≠ .done → j.state ≠ .cancelled → c ∈ j.comps → c.pos ≠ 3) ∧
      ((line0.setPump 3 { charge := 0, state := .charging }).pump 3).state ≠ .idle ∧ (line0.pump 3).state = .idle := by
  refine ⟨takes_ask rfl, by decide, by decide, ⟨0, batch, { compO with reserved := 14204 }, by decide⟩, ?_, by decide,
    by decide⟩
  intro i j c h; rw [line0_jobs i] at h; cases h

/-- At the lowest q every reserved step of the batch is covered, and at the highest it is not. -/
theorem witness_CalibrateReplacesStepVolumeAndDensity :
    (ask admitted .w .calibrate 1 (byte 3 :: (be 2 100 ++ be 2 800))).Takes .w .calibrate 1
      (byte 3 :: (be 2 100 ++ be 2 800)) ∧
    (ask admitted .w .calibrate 1 (byte 3 :: (be 2 60000 ++ be 2 2500))).Takes .w .calibrate 1
      (byte 3 :: (be 2 60000 ++ be 2 2500)) ∧ (admitted.can 3).state ≠ .vacant ∧
    (admitted.can 3).kept.level - (admitted.can 3).kept.heel < admitted.reservedSteps 3 * 60000 ∧
    admitted.reservedSteps 3 * 100 ≤ (admitted.can 3).kept.level - (admitted.can 3).kept.heel := by
  refine ⟨takes_ask rfl, takes_ask rfl, ?_⟩; decide

/-- P3 locked. -/
def locked : State := line0.setCan 3 { ready oxr with state := .locked, settleTimer := none }

theorem witness_RefillLocksAndFillsACanister :
    (ask line0 .w .refillBegin 1 [byte 3]).Takes .w .refillBegin 1 [byte 3] ∧ (line0.can 3).state ≠ .vacant ∧
      (line0.can 3).state ≠ .locked ∧ ((atStation .taring .taring).stationNeeds 3 = true ∧
        ((atStation .taring .taring).can 3).state ≠ .locked) ∧
      line0.calledNeeds 3 = false ∧ line0.stationNeeds 3 = false ∧ (line0.pump 3).state = .idle ∧
      4294967295 < 4294967296 ∧ lotNew.length = 8 ∧ printable lotNew = true ∧
      (ask locked .w .refillEnd 1 (byte 3 :: (be 4 4294967295 ++ lotNew))).Takes .w .refillEnd 1
        (byte 3 :: (be 4 4294967295 ++ lotNew)) ∧ (locked.can 3).state = .locked := by
  refine ⟨takes_ask rfl, by decide, by decide, by decide, by decide, by decide, by decide, by decide, by decide, by decide,
    takes_ask rfl, by decide⟩

theorem witness_AdjustSetsTheLevel :
    (ask admitted .w .adjust 1 (byte 3 :: (be 2 500 ++ be 4 50000000))).Takes .w .adjust 1
      (byte 3 :: (be 2 500 ++ be 4 50000000)) ∧
    (ask admitted .w .adjust 1 (byte 3 :: (be 2 500 ++ be 4 2000000000))).Takes .w .adjust 1
      (byte 3 :: (be 2 500 ++ be 4 2000000000)) ∧
    (admitted.can 3).state ≠ .vacant ∧ 65535 ≠ (admitted.can 3).kept.count ∧ 500 = (admitted.can 3).kept.count ∧
    (admitted.can 3).kept.heel ≤ 50000000 ∧ 2000000000 ≤ (admitted.can 3).kept.capacity ∧
    50000000 - (admitted.can 3).kept.heel < admitted.reservedSteps 3 * (admitted.can 3).kept.q ∧
    admitted.reservedSteps 3 * (admitted.can 3).kept.q ≤ 2000000000 - (admitted.can 3).kept.heel := by
  refine ⟨takes_ask rfl, takes_ask rfl, ?_⟩; decide

theorem witness_ReadingRequestsChangeNothing :
    (ask admitted .a .readCanister 1 [byte (15 : Pos).val]).Takes .a .readCanister 1 [byte (15 : Pos).val] ∧
      (ask admitted .w .status 1 []).Takes .w .status 1 [] ∧ admitted.job? h0 = some batch ∧ 1 ≤ h0.gen ∧
      h0.gen ≤ 255 ∧ batch.owner = .a ∧
      (ask admitted .a .readJob 1 [byte 0, byte 1, 0]).Takes .a .readJob 1 [byte h0.slot.val, byte h0.gen, 0] ∧
      batch.comps[1]? = some { compB with reserved := 1083 } ∧
      (ask admitted .a .readJob 1 [byte 0, byte 1, byte 2]).Takes .a .readJob 1 [byte h0.slot.val, byte h0.gen, byte (1 + 1)] ∧
      2 < batch.n ∧ batch.n ≤ 99 ∧ (∃ e, batch.results[2]? = some e) ∧
      (ask admitted .a .readTin 1 [byte 0, byte 1, byte 3]).Takes .a .readTin 1 [byte h0.slot.val, byte h0.gen, byte (2 + 1)] :=
  ⟨takes_ask rfl, takes_ask rfl, by decide, by decide, by decide, rfl, takes_ask rfl, by decide, takes_ask rfl, by decide,
    by decide, ⟨_, rfl⟩, takes_ask rfl⟩

theorem witness_RecordsHaveTheirLayouts :
    (line0.can 3).kept.code.length = 3 ∧ (line0.can 3).kept.lot.length = 8 ∧ batch.orderRef.length = 12 ∧
      batch.colour.length = 16 ∧ batch.base.length = 4 ∧ batch.cls.length = 2 ∧ compO.code.length = 3 ∧
      compO.amount.length = 7 ∧ compO.lotSnap.length = 8 ∧ (buildLabel batch tin1).orderRef.length = 12 ∧
      (buildLabel batch tin1).colour.length = 16 ∧ (buildLabel batch tin1).cls.length = 2 ∧
      (buildLabel batch tin1).base.length = 4 ∧ (∀ x ∈ (buildLabel batch tin1).lotCodes, x.length = 3) ∧
      (line0.can 3).kept.level < 4294967296 ∧ (line0.can 3).kept.count < 65536 ∧ batch.vref < 65536 ∧
      batch.counted < 256 ∧ compO.cum < 4294967296 := by decide

/-! #### Job requests -/

/-- P3 too low for the batch. -/
def lowP3 : State := line0.setCan 3 (ready { oxr with level := 60000000 })

/-- Every slot occupied. -/
def fullTable : State := { line0 with slots := Vector.replicate 24 { gen := 1, job := some batch } }

/-- The body of step 1 under REFUSE. -/
def submitRefuse : Bytes := submitBytes.set 41 1

theorem fits_submit (s : State) (h : s = line0 ∨ s = lowP3 ∨ s = fullTable) (b : Bytes)
    (hb : b = submitBytes ∨ b = submitRefuse) : SubmitFits s .a b := by
  rcases h with h | h | h <;> subst h <;> rcases hb with h | h <;> subst h <;>
    exact ⟨by decide, by decide, by decide, fun o h1 h2 => by
        have h : o = 37 ∨ o = 38 ∨ o = 39 ∨ o = 40 ∨ o = 41 := by omega
        rcases h with h | h | h | h | h <;> subst h <;> decide, fun e he => by
        have h : e = ⟨codeOXR, compO.amount, 4⟩ ∨ e = ⟨codeBLK, compB.amount, 3⟩ := by revert e; decide
        rcases h with h | h <;> subst h
        · exact ⟨by decide, by decide, ⟨24615, by decide⟩, by decide, 3, by decide⟩
        · exact ⟨by decide, by decide, ⟨130, by decide⟩, by decide, 9, by decide⟩,
      by decide, by decide, by decide, by decide, by decide, by decide, by decide⟩

theorem fits_ask {s : State} {p : Port} {k : ReqKind} {tag : Byte} {b body : Bytes} (h : SubmitFits s .a body) :
    SubmitFits (ask s p k tag b) .a body :=
  { h with entries := h.entries, cls := h.cls }

/-- A SUBMIT of the batch from A. -/
def submitting (s : State) (b : Bytes) : State := ask s .a .submit 7 b

theorem witness_SubmitAdmitsAJobOrMakesItWait :
    Port.a ≠ .w ∧
    (∀ s b, (s = line0 ∨ s = lowP3 ∨ s = fullTable) → (b = submitBytes ∨ b = submitRefuse) →
      (submitting s b).Takes .a .submit 7 b ∧ SubmitFits (submitting s b) .a b) ∧
    (∀ i, ((submitting fullTable submitBytes).slot i).job ≠ none) ∧
    ((submitting line0 submitBytes).slot 0).job = none ∧
    (∀ c ∈ (newJob (submitting line0 submitBytes) .a (submitBody submitBytes)).comps,
      (submitting line0 submitBytes).waitList c.pos = [] ∧
      (newJob (submitting line0 submitBytes) .a (submitBody submitBytes)).need c *
        ((submitting line0 submitBytes).can c.pos).kept.q ≤ (submitting line0 submitBytes).freeVol c.pos) ∧
    (∃ c post, (newJob (submitting lowP3 submitBytes) .a (submitBody submitBytes)).comps = [] ++ c :: post ∧
      (submitting lowP3 submitBytes).freeVol c.pos <
        (newJob (submitting lowP3 submitBytes) .a (submitBody submitBytes)).need c *
          ((submitting lowP3 submitBytes).can c.pos).kept.q) ∧
    u8 submitBytes 41 = 0 ∧ u8 submitRefuse 41 = 1 :=
  ⟨by decide, fun s b hs hb => ⟨takes_ask (by rcases hs with h | h | h <;> subst h <;> rfl), fits_ask (fits_submit s hs b hb)⟩,
    by decide, by decide, by decide, ⟨compO, [compB], by decide⟩, by decide, by decide⟩

theorem witness_CancelReleasesAJob :
    Port.a ≠ .w ∧ admitted.job? h0 = some batch ∧ batch.owner = .a ∧ 1 ≤ h0.gen ∧ h0.gen ≤ 255 ∧
      (ask admitted .a .cancel 1 [byte h0.slot.val, byte h0.gen]).Takes .a .cancel 1 [byte h0.slot.val, byte h0.gen] ∧
      (withJob { batch with state := .done }).job? h0 = some { batch with state := .done } ∧
      JobState.done ∈ [JobState.cancelling, .done, .cancelled] ∧
      batch.state ∉ [JobState.cancelling, .done, .cancelled] ∧ (∀ t, admitted.tin = some t → t.handle ≠ h0) ∧
      (∀ q r, h0 ∈ admitted.waitList q → h0 ∈ admitted.waitList r → q = r) :=
  ⟨by decide, by decide, rfl, by decide, by decide, takes_ask rfl, by decide, by decide, by decide,
    fun t h => absurd (h.symm.trans admitted_tin) (by simp), by decide⟩

/-- The lidder busy with a tin of another job. -/
def busyLidder : Lidder := { Lidder.start with state := .laneWait }

theorem witness_CancelTurnsTheStationTin :
    (let s : State := { weighing with lidder := busyLidder }
     ∃ t, s.tin = some t ∧ s.job? t.handle = some running ∧ running.owner = .a ∧
      running.state ∉ [JobState.cancelling, .done, .cancelled] ∧ t.handle = h0 ∧ t.route = .normal ∧ s.call = none ∧
      (∀ q, t.handle ∉ s.waitList q) ∧ s.line.mode ≠ .parking ∧ s.power = .on ∧
      s.station ∈ [StationState.taring, .drip, .weighing] ∧ s.lidder.state ≠ .idle ∧
      Source.station ∉ s.lidder.claims ∧ ∀ d, (s.chan d).state ≠ .burst) ∧
    (∃ t, bursting.tin = some t ∧ bursting.job? t.handle = some running ∧ t.handle = h0 ∧ t.route = .normal ∧
      bursting.call = none ∧ (∀ q, t.handle ∉ bursting.waitList q) ∧ bursting.line.mode ≠ .parking ∧
      bursting.station = .dispensing ∧ ∃ d, (bursting.chan d).state = .burst) ∧
    (ask bursting .a .cancel 1 [byte h0.slot.val, byte h0.gen]).Takes .a .cancel 1 [byte h0.slot.val, byte h0.gen] :=
  ⟨⟨_, rfl, by decide⟩, ⟨_, rfl, by decide⟩, takes_ask rfl⟩

/-- The batch SUSPENDED with a cause and a pending re-reservation. -/
def stopped (c : Cause) (l : Option (List Nat)) : Job := { batch with state := .suspended, cause := some c, pendingRe := l }

theorem witness_ResumeReturnsASuspendedJob :
    Port.a ≠ .w ∧ batch.owner = .a ∧ admitted.job? h0 = some batch ∧ batch.state ≠ .suspended ∧ 1 ≤ h0.gen ∧
      h0.gen ≤ 255 ∧ (ask admitted .a .resume 1 [byte h0.slot.val, byte h0.gen]).Takes .a .resume 1
        [byte h0.slot.val, byte h0.gen] ∧
      (∀ j ∈ [stopped .callExpired none, stopped .lotStop none, stopped .weighStop none,
        stopped .weighNoneStop (some [2000, 361])], (withJob j).job? h0 = some j ∧ j.state = .suspended) ∧
      [2000, 361].length = batch.comps.length ∧
      (∀ x ∈ [2000, 361].zip batch.comps,
        ¬ (0 < x.1 ∧ admitted.freeVol x.2.pos < x.1 * (admitted.can x.2.pos).kept.q)) ∧
      (∃ c post, [4294967295, 0].zip batch.comps = [] ++ (4294967295, c) :: post ∧
        admitted.freeVol c.pos < 4294967295 * (admitted.can c.pos).kept.q) := by
  refine ⟨by decide, rfl, by decide, by decide, by decide, by decide, takes_ask rfl, by decide, by decide, by decide,
    ⟨_, _, rfl, by decide⟩⟩

theorem witness_RetireAndClearPortFreeSlots :
    Port.a ≠ .w ∧ admitted.job? h0 = some batch ∧ batch.owner = .a ∧ 1 ≤ h0.gen ∧ h0.gen ≤ 255 ∧
      (ask admitted .a .retire 1 [byte h0.slot.val, byte h0.gen]).Takes .a .retire 1 [byte h0.slot.val, byte h0.gen] ∧
      batch.state ≠ .done ∧ batch.state ≠ .cancelled ∧
      (line0.setSlot 23 { gen := 255, job := some { batch with state := .done } }).job? ⟨23, 255⟩ =
        some { batch with state := .done } ∧
      (ask admitted .a .clearPort 1 []).Takes .a .clearPort 1 [] ∧ (ask admitted .a .clearPort 1 []).GensOk :=
  ⟨by decide, by decide, rfl, by decide, by decide, takes_ask rfl, by decide, by decide, by decide, takes_ask rfl,
    by unfold State.GensOk; decide⟩

/-! #### Class, line and query requests -/

/-- A class table with 12 classes, none of them "25". -/
def fullClasses : List TinClass :=
  (List.range 12).map fun i => { code := txt [0x41, 0x41 + i], fill := 250, headroom := 5, mixTime := 30 }

theorem witness_TinClassesAreSetAndDeleted :
    cls25.length = 2 ∧ printable cls25 = true ∧ blankText cls25 = false ∧ (∃ c ∈ line0.classes, c.code = cls25) ∧
      (∃ i j, (admitted.slot i).job = some j ∧ j.state ≠ .done ∧ j.state ≠ .cancelled ∧ j.cls = cls25) ∧
      (¬ ∃ i j, (line0.slot i).job = some j ∧ j.state ≠ .done ∧ j.state ≠ .cancelled ∧ j.cls = cls25) ∧
      (¬ ∃ c ∈ fullClasses, c.code = cls25) ∧ 12 ≤ fullClasses.length ∧
      (¬ ∃ c ∈ fullClasses.take 11, c.code = cls25) ∧ (fullClasses.take 11).length < 12 ∧
      (ask line0 .w .setTinClass 1 ((0 : Byte) :: (cls25 ++ be 2 250 ++ be 2 800 ++ be 2 30))).Takes .w .setTinClass 1
        ((0 : Byte) :: (cls25 ++ be 2 250 ++ be 2 800 ++ be 2 30)) ∧
      (ask line0 .w .setTinClass 1 (1 :: cls25)).Takes .w .setTinClass 1 (1 :: cls25) := by
  refine ⟨by decide, by decide, by decide, by decide, ⟨0, batch, by decide⟩, ?_, by decide, by decide, by decide, by decide,
    takes_ask rfl, takes_ask rfl⟩
  rintro ⟨i, j, h, -⟩; rw [line0_jobs i] at h; cases h

theorem witness_SetLineClampsTheSettings :
    let b : Bytes := be 2 65535 ++ [byte 255] ++ be 2 0 ++ be 2 65535 ++ be 2 65535 ++ [byte 255]
    65535 < 65536 ∧ 255 < 256 ∧ 0 < 65536 ∧ (ask line0 .w .setLine 1 b).Takes .w .setLine 1 b :=
  ⟨by decide, by decide, by decide, takes_ask rfl⟩

theorem witness_ParkAndWakeChangeTheMode :
    (ask line0 .a .lineMode 1 [0]).Takes .a .lineMode 1 [0] ∧ (ask line0 .a .lineMode 1 [1]).Takes .a .lineMode 1 [1] ∧
      line0.line.mode = .run ∧
      (line0.call = none ∧ line0.tins = [] ∧ ∀ h ∈ line0.queue, ∀ j, line0.job? h = some j → j.state = .suspended) ∧
      ¬ (∀ h ∈ admitted.queue, ∀ j, admitted.job? h = some j → j.state = .suspended) :=
  ⟨takes_ask rfl, takes_ask rfl, rfl, ⟨rfl, by decide, fun _ h => absurd h List.not_mem_nil⟩,
    fun h => absurd (h h0 (by decide) batch job_admitted) (by decide)⟩

/-- The line HALTED with the guard in a state. -/
def haltedLine (g : GuardState) : State := { line0 with line := { line0.line with mode := .halted, guard := some g } }

theorem witness_ResumeLineLeavesHalted :
    (∀ s ∈ [line0, haltedLine .opened, haltedLine .closed], (ask s .a .resumeLine 1 []).Takes .a .resumeLine 1 []) ∧
      line0.line.mode ≠ .halted ∧ (haltedLine .opened).line.mode = .halted ∧
      (haltedLine .opened).line.guard ≠ some .closed ∧ (haltedLine .closed).line.guard = some .closed :=
  ⟨fun s hs => takes_ask (by
    simp only [List.mem_cons, List.not_mem_nil, or_false] at hs; rcases hs with h | h | h <;> subst h <;> rfl),
    by decide⟩

theorem witness_MixerReturnRestoresAMixer :
    (ask line0 .a .mixerReturn 1 [codeMixer .m2]).Takes .a .mixerReturn 1 [codeMixer .m2] ∧
      (line0.mixer .m2).state ≠ .out ∧
      (∀ x ∈ [none, some tin1], ((line0.setMixer .m2 { Mixer.idle with state := .out, tin := x }).mixer .m2).state = .out) :=
  ⟨takes_ask rfl, by decide⟩

theorem witness_FindScansTheVisibleEntries :
    let b0 : Bytes := [0, 2, 3] ++ be 4 4294967295 ++ be 8 0 ++ [15, 1]
    let b1 : Bytes := [1, 8, 1, 3] ++ List.replicate 11 0 ++ [23, 0]
    (ask line0 .a .find 1 b0).Takes .a .find 1 b0 ∧ b0.length = 17 ∧
      ((findBody b0).cond ≤ 1 ∨ ((findBody b0).cond ≤ 3 ∧ fieldKind (findBody b0).field = .number)) ∧
      valueFits (fieldKind (findBody b0).field) (findBody b0).value = true ∧ (findBody b0).dir ≤ 1 ∧
      (findBody b0).table = 0 ∧ (findBody b0).field ≤ 5 ∧ (findBody b0).start ≤ 15 ∧
    (ask line0 .a .find 1 b1).Takes .a .find 1 b1 ∧ b1.length = 17 ∧ (findBody b1).cond ≤ 1 ∧
      valueFits (fieldKind (findBody b1).field) (findBody b1).value = true ∧ (findBody b1).dir ≤ 1 ∧
      (findBody b1).table = 1 ∧ 6 ≤ (findBody b1).field ∧ (findBody b1).field ≤ 9 ∧ (findBody b1).start ≤ 23 := by
  refine ⟨takes_ask rfl, by decide, by decide, by decide, by decide, by decide, by decide, by decide, takes_ask rfl,
    by decide, by decide, by decide, by decide, by decide, by decide, by decide, by decide⟩

/-- A port with some notices. -/
def noticed (l : List Notice) : State := line0.setPort .b { PortState.start with notices := l, attention := true }

theorem witness_NoticeQueuesRankAndOverflow :
    (ask line0 .b .fetchNotice 1 []).Takes .b .fetchNotice 1 [] ∧ (line0.port .b).notices = [] ∧
      (let l := [Notice.line .run]
       let n := Notice.laneFull .lb
       let r := [Notice.wrongTin cls25 baseW, .line .parked]
       (ask (noticed (l ++ n :: r)) .b .fetchNotice 1 []).Takes .b .fetchNotice 1 [] ∧
         ((noticed (l ++ n :: r)).port .b).notices = l ++ n :: r ∧ (∀ x ∈ l, x.level < n.level) ∧
         ∀ x ∈ r, x.level ≤ n.level) ∧
      ((noticed (List.replicate 15 (.line .run))).port .b).notices.length < 16 ∧
      (let l := [Notice.laneFull .lb]
       let x := Notice.line .run
       let r := List.replicate 14 (Notice.line .parked)
       ((noticed (l ++ x :: r)).port .b).notices = l ++ x :: r ∧ (l ++ x :: r).length = 16 ∧
         (∀ y ∈ l, x.level < y.level) ∧ ∀ y ∈ r, x.level ≤ y.level) :=
  ⟨takes_ask rfl, by decide, ⟨takes_ask rfl, by decide⟩, by decide, by decide⟩

/-! #### Guard stop, failed attempts, walks and selections -/

theorem witness_GuardStopsTheLine :
    (haltedLine .opened).power = .on ∧ (haltedLine .opened).line.mode = .halted ∧
      (haltedLine .opened).line.guard = some .opened ∧ (haltedLine .closed).line.guard = some .closed ∧
      line0.line.mode ≠ .halted ∧ line0.tin = none ∧
      ((atStation .taring .taring).tin = some tin1 ∧ (atStation .taring .taring).station = .taring) ∧
      (let t := { tin1 with stage := .mixWait }
       let s := atStation .handoff .mixWait
       s.tin = some t ∧ s.station ≠ .taring ∧ s.undecided t = false) ∧
      (let t := { tin1 with stage := .dispensing }
       bursting.tin = some t ∧ bursting.station ≠ .taring ∧ bursting.undecided t = true ∧
         ∃ d, (bursting.chan d).state = .burst) ∧
      (let t := { tin1 with stage := .dispensing }
       let s := atStation .dispensing .dispensing
       s.tin = some t ∧ s.undecided t = true ∧ (∀ d, (s.chan d).state ≠ .burst) ∧ t.dispensed.sum = 0) ∧
      (∃ t, weighing.tin = some t ∧ weighing.station ≠ .taring ∧ weighing.undecided t = true ∧
        (∀ d, (weighing.chan d).state ≠ .burst) ∧ 0 < t.dispensed.sum ∧ Source.station ∉ weighing.lidder.claims) :=
  ⟨by decide, by decide, by decide, by decide, by decide, by decide, by decide, by decide, by decide, by decide,
    ⟨_, rfl, by decide⟩⟩

theorem witness_SpoiledAttemptsAreReservedAgain :
    weighing.job? tin1.handle = some running ∧ running.state ≠ .cancelling ∧ running.state ≠ .cancelled ∧
      [4735, 361].length = running.comps.length ∧ tin1.dispensed.sum = 0 ∧
      (∀ x ∈ [4735, 361].zip running.comps,
        ¬ (0 < x.1 ∧ weighing.freeVol x.2.pos < x.1 * (weighing.can x.2.pos).kept.q)) ∧
      (let s := weighing.setCan 3 (ready { oxr with level := 50000000 })
       s.job? tin1.handle = some running ∧
       ∃ c post, [4735, 361].zip running.comps = [] ++ (4735, c) :: post ∧ 0 < 4735 ∧
         s.freeVol c.pos < 4735 * (s.can c.pos).kept.q) :=
  ⟨by decide, by decide, by decide, by decide, by decide, by decide, by decide, _, _, rfl, by decide⟩

/-- The batch waiting on P3. -/
def waiting : Job := { batch with state := .waitingStock, comps := [compO, compB] }

/-- The line with the batch on P3's wait list and a level there. -/
def waitLine (level : Nat) : State := ((withJob waiting).setCan 3 (ready { oxr with level := level })).setWait 3 [h0]

theorem witness_WalkServesItsListFromTheHead :
    (∀ v ∈ [60000000, 160000000], (waitLine v).job? h0 = some waiting) ∧
      (waiting.comps.map fun c : Component => cumSteps waiting.n c.exact (c.qSnap * waiting.vref)) = [14204, 1083] ∧
      [14204, 1083].length = waiting.comps.length ∧ (waiting.comps.map fun c : Component => c.pos).Nodup ∧
      (∃ x ∈ [14204, 1083].zip waiting.comps, x.2.pos = 3 ∧ 0 < x.1 ∧
        (waitLine 60000000).freeVol x.2.pos < x.1 * ((waitLine 60000000).can x.2.pos).kept.q) ∧
      (∀ x ∈ [14204, 1083].zip waiting.comps,
        ¬ (0 < x.1 ∧ (waitLine 160000000).freeVol x.2.pos < x.1 * ((waitLine 160000000).can x.2.pos).kept.q)) ∧
      (let s := (waitLine 160000000).setCan 9 (ready { blk with level := 20000000 })
       s.job? h0 = some waiting ∧ [14204, 1083].zip waiting.comps = [(14204, compO)] ++ (1083, compB) :: [] ∧
         (∀ x ∈ [(14204, compO)], ¬ (0 < x.1 ∧ s.freeVol x.2.pos < x.1 * (s.can x.2.pos).kept.q)) ∧
         s.freeVol compB.pos < 1083 * (s.can compB.pos).kept.q) :=
  ⟨by decide, by decide, by decide, by decide, ⟨(14204, compO), by decide⟩, by decide, by decide⟩

theorem witness_SelectionCallsTheFirstCandidate :
    (line0.station = .idle ∧ line0.call = none ∧ line0.tin = none ∧ line0.line.mode = .run) ∧ line0.queue = [] ∧
      calling.station ≠ .idle ∧ admitted.station = .idle ∧ admitted.queue = [] ++ h0 :: [] ∧
      admitted.job? h0 = some batch ∧ batch.state ≠ .suspended ∧ batch.started < batch.n ∧
      (∀ x ∈ batch.nextSteps.zip batch.comps, 0 < x.1 → (admitted.can x.2.pos).state ≠ .locked) ∧
      (∀ c ∈ batch.comps, ¬ (0 < cumSteps batch.n c.exact (c.qSnap * batch.vref) ∧
        c.lotSnap ≠ (admitted.can c.pos).kept.lot)) ∧
      (let s := admitted.setCan 3 (ready { oxr with lot := lotNew })
       s.job? h0 = some batch ∧ (∃ c ∈ batch.comps, 0 < cumSteps batch.n c.exact (c.qSnap * batch.vref) ∧
         c.lotSnap ≠ (s.can c.pos).kept.lot) ∧ batch.dLotBreak = .mark) ∧
      ({ batch with dLotBreak := .stop } : Job).dLotBreak = .stop := by decide

/-! #### The head -/

theorem witness_RecirculationIsAskedOfSettledCanisters :
    (line0.can 3).state ≠ .settled ∧
      (let s := line0.setCan 3 { ready oxr with state := .settled, settleTimer := none }
       (s.can 3).state = .settled ∧ (s.pump 3).state = .idle ∧ s.line.mode ≠ .halted ∧
         ((s.setPump 3 { charge := 0, state := .charging }).pump 3).state ≠ .idle) := by decide

theorem witness_StartCheckFollowsCanisterAndPump :
    (∀ x ∈ [DispStop.none, .cancel, .guard],
      ({ bursting with tin := some { tin1 with stop := x } } : State).tin = some { tin1 with stop := x }) ∧
      (haltedLine .opened).line.mode = .halted ∧ bursting.line.mode ≠ .halted ∧
      (∀ x ∈ [CanState.settled, .recirc, .stirring],
        ((bursting.setCan 3 { ready oxr with state := x }).can (bursting.chan 0).pos).state = x) ∧
      (bursting.can (bursting.chan 0).pos).state = .ready ∧
      (∀ x ∈ [({ charge := 0, state := .charging } : Pump), { charge := 0, state := .idle }, { charge := 1, state := .idle }],
        (bursting.setPump 3 x).pump (bursting.chan 0).pos = x) := by decide

theorem witness_BurstReportsDebitTheCanister :
    bursting.power = .on ∧ (bursting.pump 9).state = .burst ∧ (bursting.chan 1).state = .burst ∧
      (bursting.chan 1).pos = 9 ∧ (bursting.chan 1).burst = some 200 ∧
      (∀ e, e < 1 → ¬ ((bursting.chan e).state = .burst ∧ (bursting.chan e).pos = 9)) ∧
      bursting.tin = some { tin1 with stage := .dispensing } ∧ tin1.stop = .none ∧
      bursting.job? tin1.handle = some running ∧ running.state ≠ .cancelling ∧ running.state ≠ .cancelled := by decide

theorem witness_PumpReportsEndTheirOperation :
    line0.power = .on ∧
      (∀ x ∈ [PumpState.idle, .charging, .burst, .recirc], ((line0.setPump 3 { charge := 0, state := x }).pump 3).state = x) ∧
      ((line0.setCan 3 { ready oxr with state := .recirc }).can 3).state = .recirc ∧ (line0.can 3).state ≠ .recirc ∧
      (∀ d, (line0.chan d).state = .waitCharge → (line0.chan d).pos ≠ 3) ∧
      (∀ d, (line0.chan d).state = .waitRecirc → (line0.chan d).pos ≠ 3) := by decide

/-! #### Weigh check, calls, timers -/

theorem witness_TareEndsAndDispensingBegins :
    (let s : State := { atStation .taring .taring with capture := .tare, scaleTimer := some 0 }
     s.power = .on ∧ s.capture = .tare ∧ s.line.mode ≠ .halted ∧ s.scaleTimer ≠ none) ∧ 100000000 ≤ 100000000 ∧
      line0.capture = .none ∧ line0.scaleTimer = none := by decide

theorem witness_GrossIsJudged :
    (let s : State := { weighing with lidder := busyLidder }
     ∃ t, s.power = .on ∧ s.capture = .gross ∧ s.tin = some t ∧ s.job? t.handle = some running ∧
       s.lidder.state ≠ .idle ∧ Source.station ∉ s.lidder.claims ∧ s.line.mode ≠ .halted ∧ s.line.mode ≠ .parking ∧
       s.scaleTimer ≠ none ∧ t.tare = some 3412600 ∧ t.expected.getD 0 = 9309 ∧
       s.line.settings.weighFloor ≤ t.expected.getD 0) ∧
    ({ weighing with line := { weighing.line with settings := { Settings.default with weighFloor := 9310 } } } :
      State).line.settings.weighFloor = 9309 + 1 ∧
    (3422109 - 3412600 - 9309 : Int).natAbs ≤ max 200 (9309 * 20 / 1000) ∧
    max 200 (9309 * 20 / 1000) < (3422110 - 3412600 - 9309 : Int).natAbs ∧
    running.dWeighNone = .mark ∧ running.dWeighOut = .stop ∧ 3422110 ≤ 100000000 := by
  refine ⟨⟨_, rfl, rfl, rfl, ?_⟩, ?_⟩ <;> decide

theorem witness_ScanAdmitsTheCalledTin :
    calling.power = .on ∧ cls25.length = 2 ∧ baseW.length = 4 ∧ line0.call = none ∧
      calling.call = some ⟨h0, 1, cls25, baseW⟩ ∧ calling.station = .calling ∧ calling.line.mode ≠ .halted ∧
      calling.job? h0 = some { batch with state := .active } ∧ ¬ (cls25 = cls25 ∧ spaces 4 = baseW) := by decide

theorem witness_CanisterAndHeadTimersExpire :
    line0.power = .on ∧ (line0.can 3).state = .ready ∧ (line0.can 3).settleTimer ≠ none ∧ line0.line.mode = .run ∧
      ({ line0 with line := { line0.line with mode := .parked } } : State).line.mode = .parked ∧
      (line0.can 0).state ≠ .ready ∧
      (let s := line0.setCan 3 { ready oxr with state := .stirring, settleTimer := none, keepTimer := some 0, stirrer := true }
       (s.can 3).state = .stirring ∧ (s.can 3).keepTimer ≠ none) ∧ (line0.can 3).state ≠ .stirring ∧
      (let s := bursting.setChan 1 { comp := 1, pos := 9, remaining := 161, burst := none, state := .dwell, dwellTimer := some 0 }
       (s.chan 1).state = .dwell ∧ (s.chan 1).dwellTimer ≠ none) ∧ (bursting.chan 0).state ≠ .dwell ∧
      line0.station ≠ .drip ∧
      (let s : State := { atStation .drip .drip with dripTimer := some 0 }
       s.tin = some { tin1 with stage := .drip } ∧ s.job? tin1.handle = some running ∧ s.station = .drip ∧
         s.dripTimer ≠ none) := by decide

theorem witness_CallTimerExpiryWithdrawsTheCall :
    calling.power = .on ∧ line0.callTimer = none ∧ calling.call = some ⟨h0, 1, cls25, baseW⟩ ∧
      calling.callTimer ≠ none ∧ calling.line.mode ≠ .halted ∧
      (∀ n ∈ [1, 2], (calling.setSlot 0 { gen := 1, job := some { batch with state := .active, expiries := n } }).job? h0 =
        some { batch with state := .active, expiries := n }) := by decide

/-! #### Mixers, lidder and lanes -/

theorem witness_MixersTakeMixAndFault :
    (let s := atStation .handoff .mixWait
     s.power = .on ∧ s.tin = some { tin1 with stage := .mixWait } ∧ s.station = .handoff ∧ s.line.mode ≠ .halted ∧
       (s.mixer .m1).state ≠ .loading ∧ (s.mixer .m2).state ≠ .loading) ∧
      (∀ x ∈ [MixState.idle, .loading, .mixing, .holding, .out],
        ((line0.setMixer .m1 { Mixer.idle with state := x, timer := some 0 }).mixer .m1).state = x) ∧
      (mixing.mixer .m1).timer ≠ none ∧ mixerSource .m1 ∉ mixing.lidder.claims := by decide

theorem witness_LidderTakesAndPlacesTins :
    (let s : State := { weighing with lidder := { Lidder.start with claims := [.station] } }
     s.power = .on ∧ s.lidder.state = .idle ∧ s.line.mode ≠ .halted ∧ s.lidder.claims = .station :: [] ∧
       (∃ t, s.sourceTin .station = some t ∧ s.job? t.handle = some running)) ∧
      lidding.lidder.tin = some { tin1 with stage := .lidding } ∧ lidding.lidder.dest = some .la ∧
      lidding.job? tin1.handle = some { running with counted := 1 } ∧ lidding.lidder.state = .lidding ∧
      lidding.lidder.cmdOut = true ∧ line0.lidder.state ≠ .lidding ∧ lidding.lanes.count .la < laneCapacity .la ∧
      laneCapacity .la ≤ ({ lidding with lanes := { la := 6, lb := 0, lc := 0, lx := 0 } } : State).lanes.count .la ∧
      ({ lidding with lidder := { lidding.lidder with state := .laneWait, cmdOut := false } } : State).lidder.state =
        .laneWait ∧
      (∀ j ∈ [{ running with state := .active, counted := 3, delivered := 3 }, running,
        { running with state := .cancelling }], (withJob j).job? h0 = some j ∧ (withJob j).tinCount h0 = 0 ∧
          (withJob j).called h0 = false) := by
  refine ⟨⟨by decide, by decide, by decide, by decide, ⟨_, rfl, by decide⟩⟩, ?_⟩; decide

/-! #### More clauses of the statements above, each at a state that meets it -/

/-- A part in RESET whose store holds P3's record as P3's copy and again as P9's. -/
def stored : State :=
  { held with store := { Store.empty with canisters := (Vector.replicate 16 none).set 3 (some ⟨oxr, true⟩) |>.set 9 (some ⟨oxr, true⟩) } }

/-- The copy at P3 is taken, and the one at P9, which bears its code, is not. -/
theorem witness_PartStartTakesIntactRecords :
    stored.power ≠ .on ∧ stored.store.canisters[(3 : Pos)] = some ⟨oxr, true⟩ ∧
      stored.store.canisters[(9 : Pos)] = some ⟨oxr, true⟩ ∧ oxr.installed = true ∧ oxr.InRange ∧
      ((after .partStart stored).can 3).kept = oxr ∧ ((after .partStart stored).can 9).kept = CanRecord.vacant :=
  ⟨by decide, by decide, by decide, rfl, ⟨by constructor <;> decide, by decide, by decide, by decide, by decide⟩,
    by decide, by decide⟩

theorem witness_RefillNeedsOfTins :
    (let s := calling
     s.call = some ⟨h0, 1, cls25, baseW⟩ ∧ s.job? h0 = some { batch with state := .active } ∧
       (batch.comps.map fun x : Component => x.pos).Nodup ∧ s.calledNeeds 3 = true ∧ s.calledNeeds 0 = false) ∧
    (let s := atStation .taring .taring
     s.tin = some tin1 ∧ s.job? tin1.handle = some running ∧ tin1.steps.length = running.comps.length ∧
       tin1.dispensed.length = running.comps.length ∧ s.stationNeeds 9 = true ∧ s.stationNeeds 0 = false) ∧
    line0.call = none ∧ line0.tin = none := by decide

theorem witness_RecordsOfListsAndQueues :
    (waitLine 60000000).waitList 3 = [] ++ h0 :: [] ∧ (∀ o, o < (3 : Pos) → h0 ∉ (waitLine 60000000).waitList o) ∧
      (∀ r, h0 ∉ admitted.waitList r) ∧ admitted.queue.length ≤ 24 ∧ [Source.m1, .m2, .station].length ≤ 3 ∧
      (buildLabel batch tin1).lotCodes.length ≤ 6 ∧ tin1.steps.length ≤ 6 ∧ cls25.length = 2 ∧
      baseW.length = 4 := by decide

/-! #### The refusals of SUBMIT, a body for each -/

/-- A colourant entry of a body. -/
def entry (code : Text) (d : Nat) (scale : Byte) : Bytes :=
  code ++ (txt [0x30 + d]) ++ spaces 6 ++ [scale]

/-- A body of class "25" with one entry. -/
def oneEntry (sub : Byte) (e : Bytes) : Bytes :=
  spaces 12 ++ spaces 16 ++ baseW ++ cls25 ++ be 2 1000 ++ [3, sub, 1, 0, 0, 0, 1] ++ e

theorem witness_SubmitFormat :
    (43 ≤ (submitBytes.set 42 7).length ∧ 6 < u8 (submitBytes.set 42 7) 42 ∧ u8 (submitBytes.set 42 0) 42 = 0) ∧
      (submitBytes.take 42).length < 43 ∧
      (u8 submitBytes 42 = 2 ∧ (submitBytes ++ [0]).length ≠ 43 + 11 * 2) ∧
      (submitBody (submitBytes.set 37 2)).fields =
        [(1, true), (2, true), (3, true), (4, true)] ++ (7, false) :: [(8, true), (9, true), (10, true), (11, true)] ∧
      (∀ x ∈ (submitBody submitBytes).fields, x.2 = true) ∧
      (∃ e, (submitBody (submitBytes.set 53 5)).comps[0]? = some e ∧ ¬ e.Fits []) ∧
      (∃ e f, (submitBody submitBytes).comps = [e, f] ∧ e.Fits [] ∧ f.Fits [e]) :=
  ⟨by decide, by decide, by decide, by decide, by decide, ⟨_, rfl, by decide⟩, ⟨_, _, rfl, by decide, by decide⟩⟩

theorem witness_SubmitRange :
    (submitBody ((submitBytes.set 34 0).set 35 249)).vref = 249 ∧ (submitBody submitBytes).vref = 1000 ∧
      (submitBody (submitBytes.set 36 0)).n = 0 ∧ (submitBody (submitBytes.set 36 100)).n = 100 ∧
      (∃ e d, (submitBody (oneEntry 1 (codeOXR ++ List.replicate 7 0x39 ++ [0]))).comps[0]? = some e ∧
        parseAmount e.amount = some d ∧ 2000000 < e.micro d) ∧
      (∀ c ∈ line0.classes, c.code ≠ (submitBody (submitBytes.set 33 0x36)).cls) ∧
      line0.classes = [] ++ { code := cls25, fill := 2500, headroom := 150, mixTime := 180 } :: [] ∧
      (submitBody submitBytes).cls = cls25 ∧
      (∃ e, (submitBody (oneEntry 1 (entry (txt [0x57, 0x48, 0x54]) 1 0))).comps[0]? = some e ∧
        ¬ ∃ q, (line0.can q).kept.installed = true ∧ (line0.can q).kept.code = e.code) :=
  ⟨by decide, by decide, by decide, by decide, ⟨_, 9999999, rfl, by decide, by decide⟩, by decide, by decide, by decide,
    ⟨_, rfl, by decide⟩⟩

/-- Jobs that take 398 of the 400 result entries. -/
def fullPool : State :=
  { line0 with slots := Vector.ofFn fun i =>
      if i.val < 4 then { gen := 1, job := some { batch with n := 99 } }
      else { gen := 1, job := if i.val = 4 then some { batch with n := 2 } else none } }

/-- Every slot occupied, by jobs that take 398 of the 400 result entries. -/
def fullBoth : State :=
  let s : State := { line0 with slots := Vector.replicate 24 { gen := 1, job := some { batch with n := 16 } } }
  s.setSlot 0 { gen := 1, job := some { batch with n := 30 } }

/-- TABLE-FULL comes before POOL-FULL: no slot is empty, and 2 free entries are fewer than 3. -/
theorem witness_SubmitTableAndPoolFull :
    (submitting fullBoth submitBytes).Takes .a .submit 7 submitBytes ∧ (∀ i, (fullBoth.slot i).job ≠ none) ∧
      400 - (fullBoth.jobs.map fun x => x.2.n).sum = 2 ∧ (submitBody submitBytes).n = 3 ∧
      ((newJob fullBoth .a (submitBody submitBytes)).comps.map fun c => c.exact).sum ≤
        150 * 1000000 * (submitBody submitBytes).vref ∧
      (∀ e ∈ (submitBody submitBytes).comps, ∃ q, (fullBoth.can q).kept.installed = true ∧
        (fullBoth.can q).kept.code = e.code) ∧
      lastAnswer (after (.submit .a 7 submitBytes) (submitting fullBoth submitBytes)) .a =
        some (0x81, 7, [0x07, 0, 0]) :=
  ⟨takes_ask rfl, by decide, by decide, by decide, by decide, by decide, by decide⟩

theorem witness_SubmitVolumes :
    (∃ c, (newJob line0 .a (submitBody (oneEntry 1 (entry codeOXR 1 3)))).comps[0]? = some c ∧ c.substep = false) ∧
      (∃ c, (newJob line0 .a (submitBody (oneEntry 1 (entry codeOXR 4 4)))).comps[0]? = some c ∧ c.substep = true) ∧
      (let r := submitBody (oneEntry 0 (codeOXR ++ txt [0x31, 0x30, 0x30] ++ spaces 4 ++ [0]))
       150 * 1000000 * r.vref < ((newJob line0 .a r).comps.map fun c => c.exact).sum) ∧
      (∃ i, (fullPool.slot i).job = none) ∧ 400 - (fullPool.jobs.map fun x => x.2.n).sum < (submitBody submitBytes).n := by
  refine ⟨⟨_, rfl, by decide⟩, ⟨_, rfl, by decide⟩, by decide, by decide, by decide⟩

theorem witness_SubmitRecord :
    line0.CodesOk ∧ (line0.classes.map fun c => c.code).Nodup ∧
      { code := cls25, fill := 2500, headroom := 150, mixTime := 180 } ∈ line0.classes ∧
      (submitBody submitBytes).comps[0]? = some ⟨codeOXR, compO.amount, 4⟩ ∧ (line0.can 3).kept.installed = true ∧
      (line0.can 3).kept.code = codeOXR ∧ parseAmount compO.amount = some 24615 ∧
      (newJob line0 .a (submitBody submitBytes)).comps[0]? = some compO ∧
      (∀ e ∈ (submitBody submitBytes).comps, ∃ q, (line0.can q).kept.installed = true ∧ (line0.can q).kept.code = e.code) ∧
      (∀ e ∈ [(⟨codeOXR, compO.amount, 4⟩ : CompEntry)], e.code.length = 3 ∧ e.amount.length = 7 ∧ e.scale < 256) :=
  ⟨by unfold State.CodesOk; decide, by decide⟩

/-! #### Cancelled tins -/

/-- A decided tin in HANDOFF; a tin at the station with the lidder IDLE, in RUN and in PARKING. -/
theorem witness_CancelOfDecidedAndIdle :
    (let s := atStation .handoff .mixWait
     s.tin = some { tin1 with stage := .mixWait } ∧ s.station = .handoff ∧ (∀ d, (s.chan d).state ≠ .burst) ∧
       s.job? h0 = some running) ∧
    (let s : State := { atStation .dispensing .dispensing with line := { line0.line with mode := .parking } }
     s.tin = some { tin1 with stage := .dispensing } ∧ s.lidder.state = .idle ∧ s.lidder.tin = none ∧
       Source.station ∉ s.lidder.claims ∧ (∀ d, (s.chan d).state ≠ .burst) ∧ s.station = .dispensing) ∧
    (weighing.lidder.state = .idle ∧ weighing.lidder.tin = none ∧ Source.station ∉ weighing.lidder.claims ∧
      ∀ d, (weighing.chan d).state ≠ .burst) := by decide

/-! #### Lot stops and burst reports under a dispensing stop -/

/-- The batch in the queue under LOT-BREAK STOP with a new lot in P3 and some notices of its owner. -/
def lotStopping (st : JobState) (l : List Notice) : State :=
  ({ withJob { batch with state := st, dLotBreak := .stop } with queue := [h0] }.setCan 3
    (ready { oxr with lot := lotNew })).setPort .a { PortState.start with notices := l, attention := !l.isEmpty }

/-- Resumed by the event, with its notice queued, with that notice dropped, and not resumed by it. -/
theorem witness_SelectionStopsForALot :
    (let s := lotStopping .ready [.line .run, .jobState h0 .ready .resumed, .laneFull .la]
     let before := lotStopping .suspended []
     s.queue = [] ++ h0 :: [] ∧ s.call = none ∧ s.tin = none ∧
     s.job? h0 = some { batch with dLotBreak := .stop } ∧
     (∃ c ∈ batch.comps, 0 < cumSteps batch.n c.exact (c.qSnap * batch.vref) ∧ c.lotSnap ≠ (s.can c.pos).kept.lot) ∧
     batch.state ≠ .waitingStock ∧ before.job? h0 = some { batch with state := .suspended, dLotBreak := .stop } ∧
     (s.port .a).notices = [.line .run] ++ .jobState h0 .ready .resumed :: [.laneFull .la] ∧
     ((after (.fetchNotice .a 1 []) (ask (State.selectFrom before s.queue s) .a .fetchNotice 1 [])).port .a).notices =
       [.line .run, .laneFull .la]) ∧
    (let s := lotStopping .ready []
     (s.port .a).notices = [] ∧ ((State.selectFrom (lotStopping .suspended []) s.queue s).port .a).notices = [] ∧
     ((State.selectFrom s s.queue s).port .a).notices = [.jobState h0 .suspended .lotStop]) := by decide

/-- A tin whose dispensing is stopped, with D1 reporting and D0 in a state. -/
def stopping (x : DispStop) (r : Route) (c : ChanState) (n : List Nat) : State :=
  { bursting.setChan 0 { comp := 0, pos := 3, remaining := 4735, burst := if c = .burst then some 1200 else none, state := c
                         dwellTimer := none } with
    tin := some { tin1 with stage := .dispensing, stop := x, route := r, dispensed := n } }

theorem witness_BurstReportsUnderAStop :
    (∀ s ∈ [stopping .cancel .reject .burst [0, 0], stopping .cancel .reject .done [0, 0],
        stopping .guard .normal .burst [0, 0], stopping .guard .normal .free [0, 0]],
      s.power = .on ∧ (s.pump 9).state = .burst ∧ (s.chan 1).state = .burst ∧ (s.chan 1).pos = 9 ∧
        (s.chan 1).burst = some 200 ∧ (∀ e, e < 1 → ¬ ((s.chan e).state = .burst ∧ (s.chan e).pos = 9)) ∧
        s.station = .dispensing ∧ Source.station ∉ s.lidder.claims ∧ s.job? h0 = some running) ∧
    (∃ k, k ≠ (1 : ChanId) ∧ ((stopping .cancel .reject .burst [0, 0]).chan k).state = .burst) ∧
    (∀ k, ¬ (k ≠ (1 : ChanId) ∧ ((stopping .cancel .reject .done [0, 0]).chan k).state ∈
      [ChanState.waitRecirc, .waitCharge, .burst, .dwell])) ∧
    (∀ k, k ≠ (1 : ChanId) → ((stopping .guard .normal .free [0, 0]).chan k).state ≠ .burst) ∧
    ([0, 0].modify 1 (· + 0)).sum = 0 ∧ 0 < ([0, 0].modify 1 (· + min 200 200)).sum := by decide

/-- CANCEL with a burst in progress, then its report: the debit is taken against the count kept, and the tin goes to
the lidder (R55, R113). -/
theorem test_report_after_cancel :
    let s := stopping .cancel .reject .done [0, 0]
    let t := after (.burstDone 9 150) { s with queue := [], slots := s.slots.set 0 { gen := 1, job := some { running with
      state := .cancelling, comps := [compO, { compB with reserved := 200 }] } } }
    t.station = .idle ∧ (t.can 9).kept.level = 79865000 ∧ t.reservedSteps 9 = 0 ∧ t.lidder.dest = some .lx := by decide

theorem witness_PumpReportsLetAChannelGoOn :
    (∀ st ∈ [ChanState.waitCharge, .waitRecirc],
      let s := bursting.setChan 0 { comp := 0, pos := 3, remaining := 4735, burst := none, state := st, dwellTimer := none }
      (s.chan 0).state = st ∧ (s.chan 0).pos = 3 ∧ ∀ k, k ≠ (0 : ChanId) → (s.chan k).state = st → (s.chan k).pos ≠ 3) := by
  decide

/-- Tin 1 in DISPENSING with some channels and counts. -/
def dispensing (l : List (ChanId × Channel)) (n : List Nat) (x : DispStop) (r : Route) : State :=
  { l.foldl (fun s c => s.setChan c.1 c.2) (atStation .dispensing .dispensing) with
    tin := some { tin1 with stage := .dispensing, dispensed := n, stop := x, route := r } }

/-- Both components to do, then the second with D0 at work on the first, then none; and the ends of dispensing. -/
theorem witness_TareAssignsComponents :
    (let s := dispensing [] [0, 0] .none .normal
     s.job? tin1.handle = some running ∧ tin1.steps.length = running.comps.length ∧ [0, 0].length = running.comps.length ∧
       running.comps[0]? = some { compO with reserved := 14204 } ∧ [0, 0].getD 0 0 < tin1.steps.getD 0 0 ∧
       (∀ k, (s.chan k).state ≠ .free → (s.chan k).comp ≠ 0)) ∧
    (let s := dispensing [(0, { Channel.free with state := .burst, remaining := 4735, pos := 3, burst := some 1200 })] [0, 0]
       .none .normal
     running.comps[1]? = some { compB with reserved := 1083 } ∧ [0, 0].getD 1 0 < tin1.steps.getD 1 0 ∧
       (∀ k, (s.chan k).state ≠ .free → (s.chan k).comp ≠ 1) ∧
       ¬ (∀ k, (s.chan k).state ≠ .free → (s.chan k).comp ≠ 0)) ∧
    (∀ s ∈ [dispensing [] [4735, 361] .none .normal, dispensing [] [4735, 0] .cancel .reject],
       s.station = .dispensing ∧ Source.station ∉ s.lidder.claims ∧
       ∀ k, (s.chan k).state ∉ [ChanState.waitRecirc, .waitCharge, .burst, .dwell]) := by decide

theorem dispensed_all (i : Nat) : ¬ [4735, 361].getD i 0 < tin1.steps.getD i 0 := by
  show ¬ [4735, 361].getD i 0 < [4735, 361].getD i 0
  omega

theorem witness_MixTimeOfTheClass :
    (withJob running).job? h0 = some running ∧
      (withJob running).classes = [] ++ { code := cls25, fill := 2500, headroom := 150, mixTime := 180 } :: [] ∧
      running.cls = cls25 ∧ (withJob running).mixMs h0 = 180000 := by decide

/-! #### The refusals of the other requests, a body for each, and the operations of the blocks -/

/-- Every body a port is asked is taken on this line, so that the refusals below need no more of it. -/
theorem witness_AnyBodyIsTaken (p : Port) (k : ReqKind) (b : Bytes) : (ask admitted p k 1 b).Takes p k 1 b := takes_ask rfl

theorem witness_InstallRefusals :
    let b := installBytes wht
    b.tail.length ≠ 42 ∧ (b.set 1 0x7F).length = 42 ∧ printable (installRecord (b.set 1 0x7F)).code = false ∧
      printable (installRecord (b.set 34 0x1F)).code = true ∧ printable (installRecord (b.set 34 0x1F)).lot = false ∧
      15 < u8 (b.set 0 16) 0 ∧ u8 (b.set 0 3) 0 = (3 : Pos).val ∧ (line0.can 3).state ≠ .vacant ∧
      u8 b 0 = (0 : Pos).val ∧ (line0.can 0).state = .vacant ∧
      blankText (installRecord (installBytes { wht with code := spaces 3 })).code = true ∧
      blankText (installRecord b).code = false ∧
      (∀ q, (line0.can q).kept.installed = true → (line0.can q).kept.code ≠ (installRecord b).code) ∧
      (∃ post, (installRecord (b.set 12 0xFF)).installFields = [(3, true), (4, true)] ++ (5, false) :: post) ∧
      (∃ pre, (installRecord (b.set 30 0)).installFields = pre ++ (14, false) :: [] ∧ ∀ x ∈ pre, x.2 = true) ∧
      wht.code.length = 3 ∧ wht.lot.length = 8 ∧ wht.installed = true ∧ wht.count = 0 ∧ wht.capacity < 4294967296 := by
  refine ⟨by decide, by decide, by decide, by decide, by decide, by decide, by decide, by decide, by decide, by decide,
    by decide, by decide, by decide, ⟨_, rfl⟩,
    ⟨(installRecord ((installBytes wht).set 30 0)).installFields.dropLast, by decide, by decide⟩, by decide⟩

/-- DUPLICATE comes before RANGE: OXR's code again, with q below its range. -/
theorem witness_InstallDuplicateOutOfRange :
    let b := installBytes { wht with code := codeOXR, q := 99 }
    (ask line0 .w .install 1 b).Takes .w .install 1 b ∧ b.length = 42 ∧ printable (installRecord b).code = true ∧
      printable (installRecord b).lot = true ∧ u8 b 0 = (0 : Pos).val ∧ (line0.can 0).state = .vacant ∧
      blankText (installRecord b).code = false ∧
      (∃ q, (line0.can q).kept.installed = true ∧ (line0.can q).kept.code = (installRecord b).code) ∧
      (installRecord b).q < 100 ∧
      lastAnswer (after (.install .w 1 b) (ask line0 .w .install 1 b)) .w = some (0x87, 1, [0x0E, 0, 0]) :=
  ⟨takes_ask rfl, by decide, by decide, by decide, by decide, by decide, by decide, by decide, by decide, by decide⟩

theorem witness_CanisterRefusals :
    (15 < u8 [16] 0 ∧ [(16 : Byte)].length = 1) ∧ (line0.can 0).state = .vacant ∧ (line0.can 3).state ≠ .vacant ∧
      (uN (3 :: (be 2 99 ++ be 2 800)) 1 2 < 100 ∧ 60000 < uN (3 :: (be 2 60001 ++ be 2 800)) 1 2) ∧
      (uN (3 :: (be 2 100 ++ be 2 799)) 3 2 < 800 ∧ 2500 < uN (3 :: (be 2 60000 ++ be 2 2501)) 3 2) ∧
      (3 :: (be 2 100 ++ be 2 799) : Bytes).length = 5 ∧ (locked.can 3).state = .locked ∧ (line0.can 3).state ≠ .locked ∧
      (let b : Bytes := 3 :: (be 4 0 ++ lotNew)
       b.length = 13 ∧ printable ((b.drop 5).take 8) = true ∧ printable (((b.set 12 0x7F).drop 5).take 8) = false) ∧
      (let b : Nat → Bytes := fun v => 3 :: (be 2 500 ++ be 4 v)
       let c := (line0.can 3).kept
       (b 0).length = 7 ∧ uN (b 0) 1 2 = c.count ∧ uN (b (c.heel - 1)) 3 4 < c.heel ∧
         c.capacity < uN (b (c.capacity + 1)) 3 4) := by decide

/-- Handles that name no job of A's table, and a job of A that B and C may not name. -/
theorem witness_JobRefusals :
    admitted.JobRefused .a [0, 2] [0x04, 0, 0] ∧ admitted.JobRefused .a [23, 255] [0x04, 0, 0] ∧
      admitted.JobRefused .b [0, 1] [0x05, 0, 0] ∧ admitted.JobRefused .c [0, 1, 6] [0x05, 0, 0] ∧
      23 < u8 [24, 1] 0 ∧ u8 [0, 0] 1 = 0 ∧ [(0 : Byte), 1].length = 2 ∧ [(0 : Byte), 1, 6].length = 3 ∧
      6 < u8 [0, 1, 7] 2 ∧ ¬ 6 < u8 [0, 1, 6] 2 ∧ u8 [0, 1, 0] 2 = 0 ∧ batch.comps.length < u8 [0, 1, 3] 2 ∧
      batch.n < u8 [0, 1, 4] 2 ∧ u8 [0, 1, 3] 0 = h0.slot.val ∧ u8 [0, 1, 3] 1 = h0.gen :=
  ⟨⟨0, by decide, by decide, .inl (by decide)⟩, ⟨23, by decide, by decide, .inl (by decide)⟩,
    ⟨0, by decide, by decide, .inr ⟨batch, by decide⟩⟩, ⟨0, by decide, by decide, .inr ⟨batch, by decide⟩⟩, by decide⟩

theorem test_cancel_of_an_unknown_or_foreign_job :
    lastAnswer (after (.cancel .a 1 [0, 2]) (ask admitted .a .cancel 1 [0, 2])) .a = some (0x82, 1, [0x04, 0, 0]) ∧
      lastAnswer (after (.cancel .b 1 [0, 1]) (ask admitted .b .cancel 1 [0, 1])) .b = some (0x82, 1, [0x05, 0, 0]) := by
  decide

theorem witness_ClassAndLineRefusals :
    (let b : Nat → Nat → Nat → Bytes := fun x y z => (0 : Byte) :: (cls25 ++ be 2 x ++ be 2 y ++ be 2 z)
     1 < u8 [2] 0 ∧ (b 0 0 0).head? = some 0 ∧ (b 0 0 0).length = 9 ∧ ([0] : Bytes).length ≠ 9 ∧
       printable (((b 250 5 30).set 2 0x7F).drop 1 |>.take 2) = false ∧
       blankText ((0 :: spaces 8).drop 1 |>.take 2) = true ∧ printable ((b 250 5 30).drop 1 |>.take 2) = true ∧
       blankText ((b 250 5 30).drop 1 |>.take 2) = false ∧ uN (b 249 5 30) 3 2 < 250 ∧ 20000 < uN (b 20001 5 30) 3 2 ∧
       uN (b 250 4 30) 5 2 < 5 ∧ 800 < uN (b 250 801 30) 5 2 ∧ uN (b 250 5 29) 7 2 < 30 ∧ 600 < uN (b 250 5 601) 7 2) ∧
      (([1] : Bytes).head? = some 1 ∧ ([1] : Bytes).length ≠ 3 ∧ blankText ((1 :: spaces 2).drop 1 |>.take 2) = true ∧
        (1 :: spaces 2 : Bytes).length = 3) ∧
      ([] : Bytes).length ≠ 10 ∧ (([1, 0] : Bytes).length ≠ 1 ∧ ([1, 0] : Bytes).head? = some 1) ∧
      (([] : Bytes).length ≠ 1 ∧ ([] : Bytes).head? ≠ some 1) ∧ 1 < u8 [2] 0 ∧ u8 [3] 0 ≠ 1 ∧ u8 [3] 0 ≠ 2 ∧
      ([0] : Bytes) ≠ [] := by decide

/-- The FIND body of level GE 0 from P0 upward, with one byte replaced for each check. -/
theorem witness_FindRefusals :
    let b : Nat → Byte → Bytes := fun i x => ([0, 0, 3] ++ List.replicate 14 (0 : Byte)).set i x
    let r := fun i x => findBody (b i x)
    (b 0 0).length = 17 ∧ 1 < (r 0 2).table ∧
      ¬ (((r 1 6).table = 0 ∧ (r 1 6).field ≤ 5) ∨ ((r 1 6).table = 1 ∧ 6 ≤ (r 1 6).field ∧ (r 1 6).field ≤ 9)) ∧
      ¬ ((r 2 4).cond ≤ 1 ∨ ((r 2 4).cond ≤ 3 ∧ fieldKind (r 2 4).field = .number)) ∧
      (let x := findBody ((b 1 5).set 2 0)
       x.table = 0 ∧ x.field ≤ 5 ∧ x.cond ≤ 1 ∧ valueFits (fieldKind x.field) x.value = false) ∧
      valueFits (fieldKind (r 16 2).field) (r 16 2).value = true ∧ 1 < (r 16 2).dir ∧ (r 15 16).dir ≤ 1 ∧
      ((r 15 16).table = 0 ∧ 15 < (r 15 16).start) ∧
      (let x := findBody (((b 0 1).set 1 9).set 15 24)
       x.table = 1 ∧ 6 ≤ x.field ∧ x.field ≤ 9 ∧ x.cond ≤ 3 ∧ fieldKind x.field = .number ∧ 23 < x.start) := by
  decide

/-- In PARKING: an idle line, and one with a READY job queued. -/
theorem witness_ParkConditionExamined :
    (let s : State := { line0 with line := { line0.line with mode := .parking } }
     s.line.mode = .parking ∧ s.call = none ∧ s.tins = [] ∧ s.queue = [] ∧ s.examinePark.line.mode = .parked) ∧
      (let s : State := { admitted with line := { line0.line with mode := .parking } }
       h0 ∈ s.queue ∧ s.job? h0 = some batch ∧ batch.state ≠ .suspended ∧ s.examinePark = s) := by decide

theorem witness_LidderAfterAHalt :
    (let s : State := { lidding with lidder := { lidding.lidder with cmdOut := false, label := some (buildLabel batch tin1) } }
     s.lidder.state = .lidding ∧ s.lidder.label = some (buildLabel batch tin1) ∧ s.lidder.cmdOut = false) ∧ lidding.lidder.cmdOut = true ∧
      line0.lidder.state = .idle ∧ busyLidder.state = .laneWait ∧ line0.lidder.claims = [] ∧
      (haltedLine .closed).line.mode = .halted := by decide

theorem witness_WakeAndQueue :
    (∀ m ∈ [LineMode.parking, .parked], ({ line0 with line := { line0.line with mode := m } } : State).wake.line.mode =
      .run) ∧ line0.line.mode = .run ∧ (haltedLine .opened).line.mode = .halted ∧ h0 ∈ admitted.queue ∧
      h0 ∉ line0.queue ∧ line0.queue = [] ∧ admitted.queue.head? = some h0 := by decide

theorem witness_ExamineRecirc :
    let s := line0.setCan 3 { ready oxr with state := .settled, settleTimer := none, demand := true }
    (s.can 3).demand = true ∧ (s.can 3).state = .settled ∧ (s.pump 3).state = .idle ∧ s.line.mode ≠ .halted ∧
      (line0.can 3).demand = false := by decide

/-- No transfer: no tin, a tin of another stage, a mixer that is LOADING for the tin. -/
theorem witness_NoTransfer :
    line0.tin = none ∧ (atStation .taring .taring).station ≠ .handoff ∧
      (let s := (atStation .handoff .mixWait).setMixer .m2 { Mixer.idle with state := .loading, expected := some (h0, 1) }
       s.tin = some { tin1 with stage := .mixWait } ∧ (s.mixer .m2).state = .loading ∧
         (s.mixer .m2).expected = some (tin1.handle, tin1.index)) ∧ tin1.stage ≠ .mixWait := by decide

/-- Jobs that keep their state when a tin of theirs ends. -/
theorem witness_ContextEndedKeepsTheState :
    (mixing.job? h0 = some running ∧ running.state = .active ∧ running.counted ≠ running.n ∧ 0 < mixing.tinCount h0) ∧
      (let s : State := { mixing with slots := (withJob { running with state := .cancelling }).slots }
       s.job? h0 = some { running with state := .cancelling } ∧ 0 < s.tinCount h0) ∧
      (∀ st ∈ [JobState.waitingStock, .suspended], st ∉ [JobState.active, .cancelling]) ∧ calling.called h0 = true := by
  decide

end Sys2Proof.Tests
end

section
/-! Formula arithmetic (R8, R9, R11, R12): the two sides of the rounding, and the statements O8 and O9. -/

namespace Sys2Proof.Formula

open Sys2Proof Sys2Proof.Machine

/-- Rounding half up: 2M × S(k) lies within M of 2kE (R8). -/
theorem cumSteps_rounds (k e : Nat) {m : Nat} (hm : 0 < m) :
    2 * m * cumSteps k e m ≤ 2 * k * e + m ∧ 2 * k * e + m < 2 * m * cumSteps k e m + 2 * m := by
  have quotient := Nat.div_add_mod (2 * k * e + m) (2 * m)
  have remainder := Nat.mod_lt (2 * k * e + m) (show 0 < 2 * m by omega)
  rw [← cumSteps] at quotient
  omega

/-- One tin more adds floor(E / M) or floor(E / M) + 1 steps (R9, R11). -/
theorem cumSteps_succ_sub (k e : Nat) {m : Nat} (hm : 0 < m) :
    cumSteps (k + 1) e m - cumSteps k e m = e / m ∨ cumSteps (k + 1) e m - cumSteps k e m = e / m + 1 := by
  have split : cumSteps (k + 1) e m = ((2 * k * e + m) + 2 * e) / (2 * m) := by
    unfold cumSteps; congr 1; ring
  have floor : 2 * e / (2 * m) = e / m := Nat.mul_div_mul_left e m (by decide)
  rw [split, Nat.add_div (by omega), floor, ← cumSteps]
  generalize e / m = q
  by_cases carry : 2 * m ≤ (2 * k * e + m) % (2 * m) + 2 * e % (2 * m)
  · right; rw [if_pos carry]; omega
  · left; rw [if_neg carry]; omega

/-- The count of the next tin for each component is S(c + 1) − S(c) (R9). -/
theorem nextSteps_getElem? (j : Job) (i : Nat) :
    j.nextSteps[i]? = j.comps[i]?.map fun c => j.cumAt c (j.counted + 1) - j.cumAt c j.counted :=
  List.getElem?_map

/-- Settles O8: S(c) is the exact target rounded half up. -/
theorem cumulativeCountWithinHalfStep : Obligations.CumulativeCountWithinHalfStep := by
  intro j c hcum hc hm
  obtain ⟨lower, upper⟩ := cumSteps_rounds j.counted c.exact hm
  rw [← hcum c hc] at lower upper
  generalize c.qSnap * j.vref = m at *
  have target : 2 * j.counted * c.exact = 2 * (j.counted * c.exact) := Nat.mul_assoc _ _ _
  have taken : 2 * m * c.cum = 2 * (c.cum * m) := by ring
  omega

/-- Settles O9: consecutive cumulative counts differ by floor(E / M) or one more. -/
theorem tinStepCountIsFloorOrOneMore : Obligations.TinStepCountIsFloorOrOneMore := by
  intro j
  refine ⟨List.length_map _, fun i c k hc hk hm => ?_⟩
  rw [nextSteps_getElem?, hc] at hk
  obtain rfl := Option.some.inj hk
  exact cumSteps_succ_sub j.counted c.exact hm

end Sys2Proof.Formula
end

section
/-! Bodies and amounts (R2, R174, R177): reading a field of a body whose parts stand one after another, the SUBMIT body,
and the amount field. -/

namespace Sys2Proof.Submit

open Sys2Proof Sys2Proof.Machine

/-! ### Reading past a part of a body -/

theorem u8_append_skip {x y : Bytes} {off : Nat} (h : x.length ≤ off) : u8 (x ++ y) off = u8 y (off - x.length) := by
  simp [u8, List.getElem?_append_right h]

theorem textAt_append_skip {x y : Bytes} {off : Nat} (h : x.length ≤ off) (n : Nat) :
    textAt (x ++ y) off n = textAt y (off - x.length) n := by
  simp [textAt, List.drop_append, List.drop_eq_nil_of_le h]

theorem textAt_append_here {x : Bytes} {n : Nat} (h : x.length = n) (y : Bytes) : textAt (x ++ y) 0 n = x := by
  simp [textAt, ← h]

/-- A text field behind the parts `x` of a body. -/
theorem textAt_field {x f : Bytes} {off n : Nat} (hx : x.length = off) (hf : f.length = n) (y : Bytes) :
    textAt (x ++ (f ++ y)) off n = f := by
  rw [textAt_append_skip hx.le, hx, Nat.sub_self]
  exact textAt_append_here hf y

theorem byte_toNat {n : Nat} (h : n < 256) : (byte n).toNat = n := Nat.mod_eq_of_lt h

theorem be_length (w n : Nat) : (be w n).length = w := by
  induction w with
  | zero => rfl
  | succ w ih => simp [be, ih]

/-- A 2-byte number is read back (R174). -/
theorem uN_two {x y : Bytes} {v off : Nat} (h : x.length = off) (hv : v < 65536) :
    uN (x ++ (be 2 v ++ y)) off 2 = v := by
  have high : (byte (v / 256)).toNat = v / 256 := byte_toNat (by omega)
  have low : (byte v).toNat = v % 256 := rfl
  rw [uN, uN, uN, u8_append_skip (show x.length ≤ off + 0 by omega),
    u8_append_skip (show x.length ≤ off + 1 by omega)]
  simp [h, be, u8, high, low]
  omega

/-! ### The SUBMIT body -/

/-- A component entry as R177 lays it out. -/
def entryBytes (e : CompEntry) : Bytes := e.code ++ e.amount ++ [byte e.scale]

/-- An entry whose fields have their widths. -/
def Sized (e : CompEntry) : Prop := e.code.length = 3 ∧ e.amount.length = 7 ∧ e.scale < 256

theorem entryBytes_length {e : CompEntry} (h : Sized e) : (entryBytes e).length = 11 := by
  obtain ⟨hcode, hamount, -⟩ := h
  simp [entryBytes, hcode, hamount]

/-- Entry `i` stands 11 × i bytes into the entries. -/
theorem entries_read {es : List CompEntry} (h : ∀ e ∈ es, Sized e) {i : Nat} {e : CompEntry}
    (he : es[i]? = some e) :
    textAt (es.flatMap entryBytes) (11 * i) 3 = e.code ∧ textAt (es.flatMap entryBytes) (11 * i + 3) 7 = e.amount ∧
      u8 (es.flatMap entryBytes) (11 * i + 10) = e.scale := by
  induction es generalizing i with
  | nil => cases he
  | cons x es ih =>
    have hx := h x List.mem_cons_self
    rw [List.flatMap_cons]
    cases i with
    | zero =>
      obtain rfl := Option.some.inj he
      obtain ⟨hcode, hamount, hscale⟩ := hx
      simp only [entryBytes, List.append_assoc]
      refine ⟨textAt_append_here hcode _, ?_, ?_⟩
      · rw [textAt_append_skip (by omega), hcode]
        exact textAt_append_here hamount _
      · rw [u8_append_skip (by omega), u8_append_skip (by omega), hcode, hamount]
        exact byte_toNat hscale
    | succ i =>
      have hlen := entryBytes_length hx
      rw [textAt_append_skip (by omega), textAt_append_skip (by omega), u8_append_skip (by omega), hlen,
        show 11 * (i + 1) - 11 = 11 * i by omega, show 11 * (i + 1) + 3 - 11 = 11 * i + 3 by omega,
        show 11 * (i + 1) + 10 - 11 = 11 * i + 10 by omega]
      exact ih (fun e he => h e (List.mem_cons_of_mem _ he)) he

/-- The entries behind the 43 bytes of the fixed fields are read back in order. -/
theorem compEntries_read {head : Bytes} (hh : head.length = 43) {es : List CompEntry} (h : ∀ e ∈ es, Sized e) :
    (List.range es.length).map (compEntryAt (head ++ es.flatMap entryBytes)) = es := by
  refine List.ext_getElem? fun i => ?_
  rw [List.getElem?_map]
  by_cases hi : i < es.length
  · have he : es[i]? = some es[i] := List.getElem?_eq_getElem hi
    obtain ⟨hcode, hamount, hscale⟩ := entries_read h he
    rw [List.getElem?_range hi, he]
    simp only [Option.map_some, compEntryAt]
    rw [textAt_append_skip (by omega), textAt_append_skip (by omega), u8_append_skip (by omega), hh,
      show 43 + 11 * i - 43 = 11 * i by omega, show 46 + 11 * i - 43 = 11 * i + 3 by omega,
      show 53 + 11 * i - 43 = 11 * i + 10 by omega, hcode, hamount, hscale]
  · rw [List.getElem?_eq_none (by simpa using hi), List.getElem?_eq_none (by simpa using hi), Option.map_none]

/-- A body laid out as R177 says is read as its fields. -/
theorem submitBody_read (orderRef colour base cls : Text) (vref n sub out non lot short : Nat) (es : List CompEntry)
    (horder : orderRef.length = 12) (hcolour : colour.length = 16) (hbase : base.length = 4) (hcls : cls.length = 2)
    (hvref : vref < 65536) (hn : n < 256) (hsub : sub < 256) (hout : out < 256) (hnon : non < 256) (hlot : lot < 256)
    (hshort : short < 256) (hcount : es.length < 256) (hes : ∀ e ∈ es, Sized e) :
    submitBody (orderRef ++ colour ++ base ++ cls ++ be 2 vref ++
      [byte n, byte sub, byte out, byte non, byte lot, byte short, byte es.length] ++ es.flatMap entryBytes) =
      { orderRef := orderRef, colour := colour, base := base, cls := cls, vref := vref, n := n, dSubstep := sub
        dWeighOut := out, dWeighNone := non, dLotBreak := lot, shortage := short, comps := es } := by
  have hwidth : (orderRef ++ colour ++ base ++ cls ++ be 2 vref).length = 36 := by
    simp only [List.length_append, be_length]; omega
  have hhead : (orderRef ++ colour ++ base ++ cls ++ be 2 vref ++
      [byte n, byte sub, byte out, byte non, byte lot, byte short, byte es.length]).length = 43 := by
    rw [List.length_append, hwidth]; rfl
  have codes : ∀ k, u8 (orderRef ++ colour ++ base ++ cls ++ be 2 vref ++
      [byte n, byte sub, byte out, byte non, byte lot, byte short, byte es.length] ++ es.flatMap entryBytes) (36 + k) =
      u8 ([byte n, byte sub, byte out, byte non, byte lot, byte short, byte es.length] ++ es.flatMap entryBytes) k := by
    intro k
    rw [List.append_assoc, u8_append_skip (by omega), hwidth, Nat.add_sub_cancel_left]
  have count := (codes 6).trans (byte_toNat hcount)
  simp only [submitBody, SubmitBody.mk.injEq]
  refine ⟨?_, ?_, ?_, ?_, ?_, (codes 0).trans (byte_toNat hn), (codes 1).trans (byte_toNat hsub),
    (codes 2).trans (byte_toNat hout), (codes 3).trans (byte_toNat hnon), (codes 4).trans (byte_toNat hlot),
    (codes 5).trans (byte_toNat hshort), ?_⟩
  · simpa only [List.append_assoc] using textAt_append_here horder _
  · simpa only [List.append_assoc] using textAt_field horder hcolour _
  · simpa only [List.append_assoc] using
      textAt_field (x := orderRef ++ colour) (by simp only [List.length_append]; omega) hbase _
  · simpa only [List.append_assoc] using
      textAt_field (x := orderRef ++ colour ++ base) (by simp only [List.length_append]; omega) hcls _
  · simpa only [List.append_assoc] using
      uN_two (x := orderRef ++ colour ++ base ++ cls) (by simp only [List.length_append]; omega) hvref
  · rw [count]
    exact compEntries_read hhead hes

/-! ### The amount field -/

theorem digit_toNat {x : Nat} (h : x ≤ 9) : (byte (0x30 + x)).toNat = 0x30 + x := byte_toNat (by omega)

/-- A digit character is the byte of its value. -/
theorem digit_byte {c : Byte} (h : isDigit c = true) : byte (0x30 + (c.toNat - 0x30)) = c ∧ c.toNat - 0x30 ≤ 9 := by
  simp only [isDigit, Bool.and_eq_true, decide_eq_true_eq] at h
  refine ⟨BitVec.eq_of_toNat_eq ?_, by omega⟩
  rw [byte_toNat (by omega)]
  omega

theorem digit_isDigit {x : Nat} (h : x ≤ 9) :
    isDigit (byte (0x30 + x)) = true ∧ (byte (0x30 + x) != 0x20) = true := by
  have toNat := digit_toNat h
  refine ⟨by simp [isDigit, toNat]; omega, bne_iff_ne.2 fun e => ?_⟩
  rw [e] at toNat
  exact absurd toNat (by simp; omega)

/-- The value of digit characters is that of their digits (R2). -/
theorem digitsValue_digits {ds : List Nat} (h : ∀ x ∈ ds, x ≤ 9) :
    digitsValue (ds.map fun x => byte (0x30 + x)) = ds.foldl (fun v x => 10 * v + x) 0 := by
  unfold digitsValue
  rw [List.foldl_map]
  refine List.foldl_ext _ _ _ fun v x hx => ?_
  rw [digit_toNat (h x hx), Nat.add_sub_cancel_left]

/-- An amount field holds digits, at least one, then spaces, and its value is theirs (R2). -/
theorem parseAmount_iff (f : Text) (d : Nat) :
    parseAmount f = some d ↔ ∃ (ds : List Nat) (k : Nat), ds ≠ [] ∧ (∀ x ∈ ds, x ≤ 9) ∧
      f = ds.map (fun x => byte (0x30 + x)) ++ List.replicate k 0x20 ∧ d = ds.foldl (fun v x => 10 * v + x) 0 := by
  constructor
  · intro h
    simp only [parseAmount, Option.ite_none_right_eq_some, Bool.and_eq_true, List.all_eq_true, beq_iff_eq] at h
    obtain ⟨⟨⟨hne, hdigits⟩, hspaces⟩, hvalue⟩ := h
    have texts : (((f.takeWhile (· != 0x20)).map fun c => c.toNat - 0x30).map fun x => byte (0x30 + x)) =
        f.takeWhile (· != 0x20) := by
      rw [List.map_map]
      exact (List.map_congr_left fun c hc => (digit_byte (hdigits c hc)).1).trans (List.map_id _)
    have small : ∀ x ∈ (f.takeWhile (· != 0x20)).map fun c => c.toNat - 0x30, x ≤ 9 := by
      intro x hx
      obtain ⟨c, hc, rfl⟩ := List.mem_map.1 hx
      exact (digit_byte (hdigits c hc)).2
    refine ⟨_, (f.dropWhile (· != 0x20)).length, ?_, small, ?_, ?_⟩
    · simpa using hne
    · rw [texts, ← List.eq_replicate_of_mem hspaces, List.takeWhile_append_dropWhile]
    · rw [← digitsValue_digits small, texts]
      exact (Option.some.inj hvalue).symm
  · rintro ⟨ds, k, hne, hsmall, rfl, rfl⟩
    have digits : ∀ c ∈ ds.map (fun x => byte (0x30 + x)), isDigit c = true ∧ (c != 0x20) = true := by
      intro c hc
      obtain ⟨x, hx, rfl⟩ := List.mem_map.1 hc
      exact digit_isDigit (hsmall x hx)
    have front : (ds.map (fun x => byte (0x30 + x)) ++ List.replicate k 0x20).takeWhile (· != 0x20) =
        ds.map fun x => byte (0x30 + x) := by
      rw [List.takeWhile_append_of_pos fun c hc => (digits c hc).2]
      cases k <;> simp [List.replicate_succ]
    have back : (ds.map (fun x => byte (0x30 + x)) ++ List.replicate k 0x20).dropWhile (· != 0x20) =
        List.replicate k 0x20 := by
      rw [List.dropWhile_append_of_pos fun c hc => (digits c hc).2]
      cases k <;> simp [List.replicate_succ]
    have pass : (!(ds.map fun x => byte (0x30 + x)).isEmpty && (ds.map fun x => byte (0x30 + x)).all isDigit &&
        (List.replicate k (0x20 : Byte)).all (· == 0x20)) = true := by
      simp only [Bool.and_eq_true, List.all_eq_true, beq_iff_eq]
      exact ⟨⟨by simpa using hne, fun c hc => (digits c hc).1⟩, fun c hc => List.eq_of_mem_replicate hc⟩
    simp only [parseAmount, front, back]
    rw [if_pos pass, digitsValue_digits hsmall]

end Sys2Proof.Submit
end

section
/-! The checks of SUBMIT (R71, R72): what each check answers, and the record they are made on. -/

namespace Sys2Proof.Submit

open Sys2Proof Sys2Proof.Machine

/-! ### Checks in order -/

@[simp] theorem firstRefusal_nil : firstRefusal [] = none := rfl

@[simp] theorem firstRefusal_none (l : List (Option Nak)) : firstRefusal (none :: l) = firstRefusal l := rfl

@[simp] theorem firstRefusal_some (r : Nak) (l : List (Option Nak)) : firstRefusal (some r :: l) = some r := rfl

@[simp] theorem refuseIf_true (r : Nak) : refuseIf true r = some r := rfl

@[simp] theorem refuseIf_false (r : Nak) : refuseIf false r = none := rfl

theorem refuseIf_of {b : Bool} (h : b = true) (r : Nak) : refuseIf b r = some r := by rw [h, refuseIf_true]

theorem refuseIf_of_not {b : Bool} (h : b = false) (r : Nak) : refuseIf b r = none := by rw [h, refuseIf_false]

/-- Field checks in order, all passed up to one that fails: that field is named. -/
theorem firstRefusal_fields {c : AnswerCode} {pre : List (Nat × Bool)} (hpre : ∀ x ∈ pre, x.2 = true) (f : Nat)
    (post : List (Nat × Bool)) (l : List (Option Nak)) :
    firstRefusal ((pre ++ (f, false) :: post).map (fun x => refuseIf (!x.2) (nakField c x.1)) ++ l) =
      some (nakField c f) := by
  induction pre with
  | nil => rfl
  | cons x pre ih =>
    have hx : x.2 = true := hpre x List.mem_cons_self
    simp only [List.cons_append, List.map_cons, hx, Bool.not_true, refuseIf_false, firstRefusal_none]
    exact ih fun y hy => hpre y (List.mem_cons_of_mem _ hy)

/-- Field checks that all pass leave the answer to the checks behind them. -/
theorem firstRefusal_fields_pass {c : AnswerCode} {fields : List (Nat × Bool)} (h : ∀ x ∈ fields, x.2 = true)
    (l : List (Option Nak)) :
    firstRefusal (fields.map (fun x => refuseIf (!x.2) (nakField c x.1)) ++ l) = firstRefusal l := by
  induction fields with
  | nil => rfl
  | cons x fields ih =>
    have hx : x.2 = true := h x List.mem_cons_self
    simp only [List.map_cons, List.cons_append, hx, Bool.not_true, refuseIf_false, firstRefusal_none]
    exact ih fun y hy => h y (List.mem_cons_of_mem _ hy)

/-- An element with no earlier one like it is the first. -/
theorem findIdx?_first {α : Type} {p : α → Bool} {l : List α} {i : Nat} {e : α} (he : l[i]? = some e)
    (hp : p e = true) (hpre : ∀ x ∈ l.take i, p x = false) : l.findIdx? p = some i := by
  obtain ⟨hi, rfl⟩ := List.getElem?_eq_some_iff.1 he
  refine List.findIdx?_eq_some_iff_getElem.2 ⟨hi, hp, fun k hk => ?_⟩
  have : p l[k] = false := hpre _ (List.mem_take_iff_getElem.2 ⟨k, by omega, rfl⟩)
  simpa using this

/-! ### FORMAT -/

theorem formatEntries_cons (k : Nat) (earlier : List CompEntry) (e : CompEntry) (es : List CompEntry) :
    formatEntries k (earlier.map fun x => x.code) (e :: es) =
      if e.Fits earlier then formatEntries (k + 1) ((earlier ++ [e]).map fun x => x.code) es
      else some (nakComp .format k) := by
  have check : (!printable e.code || blankText e.code || (earlier.map fun x => x.code).contains e.code ||
      (parseAmount e.amount).isNone || decide (4 < e.scale)) = false ↔ e.Fits earlier := by
    simp [CompEntry.Fits, and_assoc]
  rw [formatEntries]
  by_cases h : e.Fits earlier
  · rw [check.2 h, if_neg Bool.false_ne_true, if_pos h, List.map_append]; rfl
  · rw [if_pos (eq_true_of_ne_false fun ok => h (check.1 ok)), if_neg h]

/-- The first entry that does not fit is named. -/
theorem formatEntries_first {k i : Nat} {earlier es : List CompEntry} {e : CompEntry} (he : es[i]? = some e)
    (hpre : ∀ (m : Nat) (x : CompEntry), m < i → es[m]? = some x → x.Fits (earlier ++ es.take m))
    (hbad : ¬ e.Fits (earlier ++ es.take i)) :
    formatEntries k (earlier.map fun x => x.code) es = some (nakComp .format (k + i)) := by
  induction es generalizing k i earlier with
  | nil => cases he
  | cons y es ih =>
    rw [formatEntries_cons]
    cases i with
    | zero =>
      obtain rfl := Option.some.inj he
      rw [if_neg (by simpa using hbad)]; rfl
    | succ i =>
      have hy : y.Fits earlier := by simpa using hpre 0 y (Nat.succ_pos i) rfl
      rw [if_pos hy, ih he (fun m x hm hx => ?_) (by simpa using hbad), Nat.add_right_comm, Nat.add_assoc]
      simpa using hpre (m + 1) x (Nat.succ_lt_succ hm) hx

/-- Entries that all fit pass. -/
theorem formatEntries_pass {k : Nat} {earlier es : List CompEntry}
    (h : ∀ (i : Nat) (e : CompEntry), es[i]? = some e → e.Fits (earlier ++ es.take i)) :
    formatEntries k (earlier.map fun x => x.code) es = none := by
  induction es generalizing k earlier with
  | nil => rfl
  | cons y es ih =>
    have hy : y.Fits earlier := by simpa using h 0 y rfl
    rw [formatEntries_cons, if_pos hy]
    exact ih fun i e he => by simpa using h (i + 1) e he

/-- The component count is 1 to 6 and the body has the length it declares (R177). -/
def SizedBody (b : Bytes) : Prop := 1 ≤ u8 b 42 ∧ u8 b 42 ≤ 6 ∧ b.length = 43 + 11 * u8 b 42

theorem submitFormat_count {b : Bytes} (hlen : 43 ≤ b.length) (h : u8 b 42 = 0 ∨ 6 < u8 b 42) :
    submitFormat b = some (nakField .format 12) := by
  rw [submitFormat, refuseIf_of (by simpa [hlen] using h)]
  rfl

theorem u8_beyond {b : Bytes} {off : Nat} (h : b.length ≤ off) : u8 b off = 0 := by
  simp [u8, List.getElem?_eq_none h]

theorem submitFormat_length {b : Bytes}
    (h : b.length < 43 ∨ (1 ≤ u8 b 42 ∧ u8 b 42 ≤ 6 ∧ b.length ≠ 43 + 11 * u8 b 42)) :
    submitFormat b = some (nak .format) := by
  have wrong : b.length ≠ 43 + 11 * u8 b 42 := by
    rcases h with short | ⟨-, -, wrong⟩
    · rw [u8_beyond (by omega)]; omega
    · exact wrong
  rw [submitFormat, refuseIf_of_not (by simp; omega), firstRefusal_none, refuseIf_of (by simpa using wrong)]
  rfl

theorem not_le_one (n : Nat) : (!decide (n ≤ 1)) = decide (1 < n) := by
  rw [← decide_not]; simp

/-- In a body of the right size FORMAT examines the fields, then the entries. -/
theorem submitFormat_sized {b : Bytes} (h : SizedBody b) :
    submitFormat b = firstRefusal ((submitBody b).fields.map (fun x => refuseIf (!x.2) (nakField .format x.1)) ++
      [formatEntries 1 [] (submitBody b).comps]) := by
  obtain ⟨hlow, hhigh, hlen⟩ := h
  rw [submitFormat, refuseIf_of_not (by simp; omega), firstRefusal_none, refuseIf_of_not (by simpa using hlen),
    firstRefusal_none]
  simp only [SubmitBody.fields, List.map_cons, List.map_nil, not_le_one, List.cons_append, List.nil_append]

theorem submitFormat_pass {b : Bytes} (h : SizedBody b) (hfields : ∀ x ∈ (submitBody b).fields, x.2 = true)
    (hentries : ∀ (i : Nat) (e : CompEntry), (submitBody b).comps[i]? = some e →
      e.Fits ((submitBody b).comps.take i)) :
    submitFormat b = none := by
  have entries : formatEntries 1 [] (submitBody b).comps = none :=
    formatEntries_pass (earlier := []) (by simpa using hentries)
  rw [submitFormat_sized h, firstRefusal_fields_pass hfields, entries]
  rfl

/-! ### RANGE, NO-COLOURANT, SUBSTEP and TABLE-FULL -/

theorem normalise_micro (e : CompEntry) (d : Nat) : normalise d e.scale = e.micro d := rfl

theorem range_has (lo hi n : Nat) : (⟨lo, hi⟩ : Config.Range).has n = true ↔ lo ≤ n ∧ n ≤ hi := by
  simp [Config.Range.has]

/-- An entry whose normalised amount is above 2,000,000 microlitres (R3). -/
def large (e : CompEntry) : Bool := decide (2000000 < e.micro ((parseAmount e.amount).getD 0))

theorem rangeEntries_eq (k : Nat) (es : List CompEntry) :
    rangeEntries k es = (es.findIdx? large).map fun i => nakComp .range (k + i) := by
  induction es generalizing k with
  | nil => rfl
  | cons e es ih =>
    have check : Config.maxAmount < normalise ((parseAmount e.amount).getD 0) e.scale ↔ large e = true :=
      decide_eq_true_iff.symm
    rw [rangeEntries, List.findIdx?_cons]
    by_cases h : large e = true
    · rw [if_pos (check.2 h), if_pos h]; rfl
    · rw [if_neg (fun x => h (check.1 x)), if_neg h, ih, Option.map_map]
      exact congrArg (Option.map · _) (funext fun i => congrArg _ (Nat.add_right_comm k 1 i))

/-- The figure of an entry whose amount is read. -/
theorem large_iff {e : CompEntry} (h : (parseAmount e.amount).isSome = true) :
    large e = true ↔ ∃ d, parseAmount e.amount = some d ∧ 2000000 < e.micro d := by
  obtain ⟨d, hd⟩ := Option.isSome_iff_exists.1 h
  simp [large, hd]

/-- Some installed canister carries a code. -/
theorem posOfCode_isSome (s : State) (code : Text) :
    (s.posOfCode code).isSome = true ↔ ∃ q, (s.can q).kept.installed = true ∧ (s.can q).kept.code = code := by
  have all : ∀ q, q ∈ allPos := by decide
  simp [State.posOfCode, all]

theorem colourantEntries_eq (s : State) (k : Nat) (es : List CompEntry) :
    colourantEntries s k es =
      (es.findIdx? fun e => (s.posOfCode e.code).isNone).map fun i => nakComp .noColourant (k + i) := by
  induction es generalizing k with
  | nil => rfl
  | cons e es ih =>
    rw [colourantEntries, List.findIdx?_cons]
    by_cases h : (s.posOfCode e.code).isNone = true
    · rw [if_pos h, if_pos h]; rfl
    · rw [if_neg h, if_neg h, ih, Option.map_map]
      exact congrArg (Option.map · _) (funext fun i => congrArg _ (Nat.add_right_comm k 1 i))

/-- No installed canister carries an entry's code. -/
theorem posOfCode_isNone (s : State) (code : Text) :
    (s.posOfCode code).isNone = true ↔ ¬ ∃ q, (s.can q).kept.installed = true ∧ (s.can q).kept.code = code := by
  rw [← posOfCode_isSome]
  cases s.posOfCode code <;> simp

theorem emptySlot_isNone (s : State) : s.emptySlot.isNone = true ↔ ∀ i, (s.slot i).job ≠ none := by
  have all : ∀ i, i ∈ allSlots := by decide
  simp [State.emptySlot, all]

/-- The empty slot with only occupied ones below it is taken (R58). -/
theorem emptySlot_eq {s : State} {i : Fin 24} (hlow : ∀ k, k < i → (s.slot k).job ≠ none)
    (hi : (s.slot i).job = none) :
    s.emptySlot = some i := by
  have slots : allSlots = List.finRange 24 := by decide
  rw [State.emptySlot, slots, List.find?_eq_some_iff_getElem]
  refine ⟨by simp [hi], i.val, by simp, by simp, fun k hk => ?_⟩
  have := hlow ⟨k, by omega⟩ hk
  simpa [Option.isSome_iff_ne_none] using this

/-- The class before which no other has the code. -/
theorem classOf_first {s : State} {pre post : List TinClass} {t : TinClass} {code : Text}
    (hs : s.classes = pre ++ t :: post) (hpre : ∀ c ∈ pre, c.code ≠ code) (ht : t.code = code) :
    s.classOf code = some t := by
  rw [State.classOf, hs, List.find?_append, List.find?_eq_none.2 (fun c hc => by simpa using hpre c hc)]
  simp [ht]

theorem classOf_isNone {s : State} {code : Text} (h : ∀ c ∈ s.classes, c.code ≠ code) : s.classOf code = none :=
  List.find?_eq_none.2 fun c hc => by simpa using h c hc

theorem substepRefusal_stop {j : Job} (hd : j.dSubstep = .stop) {i : Nat} {c : Component} (hc : j.comps[i]? = some c)
    (hsub : c.substep = true) (hpre : ∀ x ∈ j.comps.take i, x.substep = false) :
    substepRefusal j = some (nakComp .substep (i + 1)) := by
  have found : j.comps.findIdx? (fun x => x.substep) = some i := findIdx?_first hc hsub hpre
  simp only [substepRefusal, hd, found]

theorem substepRefusal_pass {j : Job} (h : j.dSubstep = .mark ∨ ∀ c ∈ j.comps, c.substep = false) :
    substepRefusal j = none := by
  rcases h with h | h
  · simp [substepRefusal, h]
  · have found : j.comps.findIdx? (fun x => x.substep) = none := List.findIdx?_eq_none_iff.2 h
    cases hd : j.dSubstep <;> simp [substepRefusal, hd, found]

end Sys2Proof.Submit
end

section
/-! The record that admission writes, and admission itself (R46, R47, R58, R61, R72). -/

namespace Sys2Proof.Submit

open Sys2Proof Sys2Proof.Machine

/-! ### The record -/

/-- The position of a code is that of the one installed canister that carries it (R1, R33). -/
theorem posOfCode_eq {s : State} (hcodes : s.CodesOk) {q : Pos} (hq : (s.can q).kept.installed = true) :
    s.posOfCode (s.can q).kept.code = some q := by
  obtain ⟨r, hr⟩ := Option.isSome_iff_exists.1 ((posOfCode_isSome s _).2 ⟨q, hq, rfl⟩)
  have found := List.find?_some hr
  simp only [Bool.and_eq_true, beq_iff_eq] at found
  rw [hr, hcodes r q found.1 hq found.2]

/-- The class of a code is the one record with that code (R81). -/
theorem classOf_eq {s : State} (hcodes : (s.classes.map fun c => c.code).Nodup) {t : TinClass} (ht : t ∈ s.classes) :
    s.classOf t.code = some t := by
  cases hr : s.classOf t.code with
  | none => exact absurd (List.find?_eq_none.1 hr t ht) (by simp)
  | some r =>
    rw [List.inj_on_of_nodup_map hcodes (List.mem_of_find?_eq_some hr) ht (by simpa using List.find?_some hr)]

/-- The component record of an entry (R2, R3, R5, R6, R14, R20, R61). -/
theorem newComponent_eq {s : State} (hcodes : s.CodesOk) {q : Pos} {e : CompEntry} {d : Nat}
    (hq : (s.can q).kept.installed = true) (hcode : (s.can q).kept.code = e.code) (hd : parseAmount e.amount = some d)
    (vref fill : Nat) :
    newComponent s vref fill e =
      { pos := q, code := e.code, amount := e.amount, scale := e.scale, a := e.micro d, exact := e.micro d * 1000 * fill
        qSnap := (s.can q).kept.q, cum := 0
        substep := decide ((0 < d ∧ e.micro d = 0) ∨
          (0 < e.micro d * 1000 * fill ∧ e.micro d * 1000 * fill < (s.can q).kept.q * vref))
        lotSnap := (s.can q).kept.lot, reserved := 0, lotBreak := false } := by
  have pos : s.posOfCode e.code = some q := hcode ▸ posOfCode_eq hcodes hq
  simp [newComponent, pos, hd, normalise_micro, exactTarget, isSubstep, stepDivisor, Bool.decide_or, Bool.decide_and]

/-! ### The shortage step -/

/-- The job's need of a component finds its wait list empty and its free volume large enough, or is 0 (R46). -/
def CoversNeed (s : State) (j : Job) (c : Component) : Prop :=
  0 < j.need c → s.waitList c.pos = [] ∧ j.need c * (s.can c.pos).kept.q ≤ s.freeVol c.pos

theorem admissionShort_cons (s : State) (j : Job) (c : Component) (cs : List Component) :
    (CoversNeed s j c → s.admissionShort ((c :: cs).map j.need) (c :: cs) = s.admissionShort (cs.map j.need) cs) ∧
    (¬ CoversNeed s j c → s.admissionShort ((c :: cs).map j.need) (c :: cs) = some (c.pos, j.need c)) := by
  have check : (decide (0 < j.need c) && !(s.waitList c.pos).isEmpty ||
      (decide (0 < j.need c) && decide (s.freeVol c.pos < j.need c * (s.can c.pos).kept.q))) = false ↔
      CoversNeed s j c := by
    simp [CoversNeed, imp_and]
  rw [List.map_cons, State.admissionShort, State.shortAt, State.volume]
  exact ⟨fun h => by rw [check.2 h, if_neg Bool.false_ne_true],
    fun h => if_pos (eq_true_of_ne_false fun ok => h (check.1 ok))⟩

theorem admissionShort_none {s : State} {j : Job} {cs : List Component} (h : ∀ c ∈ cs, CoversNeed s j c) :
    s.admissionShort (cs.map j.need) cs = none := by
  induction cs with
  | nil => rfl
  | cons c cs ih =>
    rw [(admissionShort_cons s j c cs).1 (h c List.mem_cons_self)]
    exact ih fun x hx => h x (List.mem_cons_of_mem _ hx)

theorem admissionShort_first {s : State} {j : Job} {pre : List Component} {c : Component} {post : List Component}
    (hpre : ∀ x ∈ pre, CoversNeed s j x) (hc : ¬ CoversNeed s j c) :
    s.admissionShort ((pre ++ c :: post).map j.need) (pre ++ c :: post) = some (c.pos, j.need c) := by
  induction pre with
  | nil => exact (admissionShort_cons s j c post).2 hc
  | cons x pre ih =>
    rw [List.cons_append, (admissionShort_cons s j x _).1 (hpre x List.mem_cons_self)]
    exact ih fun y hy => hpre y (List.mem_cons_of_mem _ hy)

/-! ### Admission -/

theorem addReserved_needs (f : Component → Nat) (cs : List Component) :
    addReserved (cs.map f) cs = cs.map fun c => { c with reserved := c.reserved + f c } := by
  induction cs with
  | nil => rfl
  | cons c cs ih => rw [List.map_cons, addReserved, ih, List.map_cons]

theorem job?_putJob (s : State) (h : Handle) (j : Job) : (s.putJob h j).job? h = some j :=
  job?_of_slot (slot_setSlot_same s h.slot _)

theorem job?_joinQueue (s : State) (h k : Handle) : (s.joinQueue h).job? k = s.job? k := by
  unfold State.joinQueue
  split <;> rfl

/-- The owner is told the state the job has (R70). -/
theorem notifyJob_eq {s : State} {h : Handle} {j : Job} (hj : s.job? h = some j) (c : Cause) :
    s.notifyJob h c = s.notify j.owner (.jobState h j.state c) := by
  rw [State.notifyJob, hj]

/-- Admission with every need covered (R72, R149). -/
theorem admitJob_ready {s : State} {h : Handle} {j : Job} (hshort : s.admissionShort j.needs j.comps = none) :
    s.admitJob h j =
      (((s.putJob h { j with
        state := .ready
        comps := j.comps.map fun c => { c with reserved := c.reserved + j.need c } }).joinQueue h).notify j.owner
          (.jobState h .ready .admitted)).wake := by
  rw [State.admitJob, hshort]
  simp only [Job.needs, addReserved_needs]
  exact congrArg State.wake (notifyJob_eq ((job?_joinQueue _ h h).trans (job?_putJob s h _)) _)

/-- Admission on a wait list (R47, R57). -/
theorem admitJob_waiting {s : State} {h : Handle} {j : Job} {p : Pos} {k : Nat}
    (hshort : s.admissionShort j.needs j.comps = some (p, k)) :
    s.admitJob h j =
      ((((s.putJob h { j with state := .waitingStock }).setWait p (s.waitList p ++ [h])).notify .w
        (.canisterWait p h k (k * (s.can p).kept.q))).notify j.owner (.jobState h .waitingStock .stockWait)) := by
  rw [State.admitJob, hshort]
  refine (notifyJob_eq (j := { j with state := .waitingStock }) ?_ .stockWait).trans rfl
  exact job?_putJob s h _

/-! ### The taking of a SUBMIT -/

variable {s : State} {p : Port} {tag : Byte} {body : Bytes}

theorem exec_submit (p : Port) (tag : Byte) (body : Bytes) (s : State) :
    exec (.submit p tag body) s = .next (s.take p .submit tag body (submitRefusal p body) (submitEffect p body)) := rfl

theorem admits_submit (hp : p ≠ .w) : admits .submit p = true := bne_iff_ne.2 hp

theorem newJob_popHold (s : State) (p : Port) (r : SubmitBody) : newJob (s.popHold p) p r = newJob s p r := rfl

theorem admissionShort_popHold (s : State) (p : Port) (l : List Nat) (cs : List Component) :
    (s.popHold p).admissionShort l cs = s.admissionShort l cs := by
  induction l generalizing cs with
  | nil => cases cs <;> rfl
  | cons k ks ih =>
    cases cs with
    | nil => rfl
    | cons c cs => rw [State.admissionShort, State.admissionShort, ih]; rfl

/-- The checks read nothing of the port that takes the request. -/
theorem submitRefusal_popHold (s : State) (p : Port) (body : Bytes) :
    submitRefusal p body (s.popHold p) = submitRefusal p body s := by
  have short : shortRefusal (s.popHold p) (newJob s p (submitBody body)) =
      shortRefusal s (newJob s p (submitBody body)) := by
    rw [shortRefusal, admissionShort_popHold]; rfl
  have colourants : colourantEntries (s.popHold p) 1 (submitBody body).comps =
      colourantEntries s 1 (submitBody body).comps := by
    rw [colourantEntries_eq, colourantEntries_eq]; rfl
  rw [submitRefusal, newJob_popHold, short, colourants]
  rfl

/-- A SUBMIT that fails a check is answered with that check's refusal. -/
theorem exec_submit_refused (hp : p ≠ .w) (ht : s.Takes p .submit tag body) {r : Nak}
    (hr : submitRefusal p body s = some r) :
    exec (.submit p tag body) s = .next (s.replied p .submit tag r.bytes) := by
  rw [exec_submit, take_refused ht (admits_submit hp) ((submitRefusal_popHold s p body).trans hr)]

/-- A SUBMIT that passes every check admits its job in the lowest-numbered empty slot (R58, R72). -/
theorem exec_submit_taken (hp : p ≠ .w) (ht : s.Takes p .submit tag body) (hr : submitRefusal p body s = none)
    {i : Fin 24} (hi : s.emptySlot = some i) :
    exec (.submit p tag body) s = .next
      (((s.popHold p).admitJob ⟨i, (s.slot i).gen⟩ (newJob s p (submitBody body))).select.answered p .submit tag
        (submitContent s ⟨i, (s.slot i).gen⟩ (newJob s p (submitBody body)))) := by
  have effect : submitEffect p body (s.popHold p) =
      (((s.popHold p).admitJob ⟨i, (s.slot i).gen⟩ (newJob s p (submitBody body))).select,
        submitContent s ⟨i, (s.slot i).gen⟩ (newJob s p (submitBody body))) := by
    have slot : (s.popHold p).emptySlot = some i := hi
    rw [submitEffect, slot]
    simp only [newJob_popHold, submitContent, admissionShort_popHold]
    rfl
  rw [exec_submit, take_ok ht (admits_submit hp) ((submitRefusal_popHold s p body).trans hr), effect]
  rfl

end Sys2Proof.Submit
end

section
/-! SUBMIT as a whole (R71, R72): the checks passed up to each table, and the statement O33. -/

namespace Sys2Proof.Submit

open Sys2Proof Sys2Proof.Machine

/-! ### The checks passed so far -/

/-- The body passes FORMAT and RANGE. -/
structure BodyPasses (b : Bytes) : Prop where
  format : submitFormat b = none
  vref : 250 ≤ (submitBody b).vref ∧ (submitBody b).vref ≤ 20000
  tins : 1 ≤ (submitBody b).n ∧ (submitBody b).n ≤ 99
  amounts : ∀ e ∈ (submitBody b).comps, large e = false

/-- The class table and the canister table hold what it names. -/
structure TablesPass (s : State) (b : Bytes) : Prop extends BodyPasses b where
  cls : (s.classOf (submitBody b).cls).isNone = false
  held : ∀ e ∈ (submitBody b).comps, (s.posOfCode e.code).isNone = false

/-- The record passes SUBSTEP and OVERFILL. -/
structure RecordPasses (s : State) (p : Port) (b : Bytes) : Prop extends TablesPass s b where
  substep : substepRefusal (newJob s p (submitBody b)) = none
  headroom : ((newJob s p (submitBody b)).comps.map fun c => c.exact).sum ≤
    s.headroomOf (submitBody b).cls * 1000000 * (submitBody b).vref

section
variable {s : State} {p : Port} {b : Bytes}

/-- The checks of the job table and of the reservation unit. -/
def slotChecks (s : State) (p : Port) (b : Bytes) : List (Option Nak) :=
  [ refuseIf s.emptySlot.isNone (nak .tableFull),
    refuseIf (decide (s.freeEntries < (submitBody b).n)) ⟨.poolFull, 0, 0, be 2 s.freeEntries⟩,
    shortRefusal s (newJob s p (submitBody b)) ]

/-- OVERFILL with its figures (R13, R179). -/
def overfill (s : State) (p : Port) (b : Bytes) : Nak :=
  ⟨.overfill, 0, 0, be 8 (overfillTotal (newJob s p (submitBody b)).targetSum (submitBody b).vref) ++
    be 4 (s.headroomOf (submitBody b).cls * 1000000)⟩

/-- The checks of the record that would be written, and those behind them. -/
def recordChecks (s : State) (p : Port) (b : Bytes) : List (Option Nak) :=
  substepRefusal (newJob s p (submitBody b)) ::
    refuseIf (!fitsHeadroom (newJob s p (submitBody b)).targetSum (s.headroomOf (submitBody b).cls)
      (submitBody b).vref) (overfill s p b) ::
    slotChecks s p b

/-- The checks against the class table and the canister table, and those behind them. -/
def tableChecks (s : State) (p : Port) (b : Bytes) : List (Option Nak) :=
  refuseIf (s.classOf (submitBody b).cls).isNone ⟨.noClass, 4, 0, (submitBody b).cls⟩ ::
    colourantEntries s 1 (submitBody b).comps :: recordChecks s p b

/-- The RANGE checks, and those behind them. -/
def rangeChecks (s : State) (p : Port) (b : Bytes) : List (Option Nak) :=
  refuseIf (!Config.vrefRange.has (submitBody b).vref) (nakField .range 5) ::
    refuseIf (!Config.tinCountRange.has (submitBody b).n) (nakField .range 6) ::
    rangeEntries 1 (submitBody b).comps :: tableChecks s p b

theorem submitRefusal_eq (s : State) (p : Port) (b : Bytes) :
    submitRefusal p b s = firstRefusal (submitFormat b :: rangeChecks s p b) := rfl

theorem submitRefusal_format_pass (h : submitFormat b = none) :
    submitRefusal p b s = firstRefusal (rangeChecks s p b) := by
  rw [submitRefusal_eq, h, firstRefusal_none]

theorem vref_check (h : 250 ≤ (submitBody b).vref ∧ (submitBody b).vref ≤ 20000) :
    Config.vrefRange.has (submitBody b).vref = true := (range_has 250 20000 _).2 h

theorem tins_check (h : 1 ≤ (submitBody b).n ∧ (submitBody b).n ≤ 99) :
    Config.tinCountRange.has (submitBody b).n = true := (range_has 1 99 _).2 h

theorem submitRefusal_body (h : BodyPasses b) : submitRefusal p b s = firstRefusal (tableChecks s p b) := by
  have amounts : rangeEntries 1 (submitBody b).comps = none := by
    rw [rangeEntries_eq, List.findIdx?_eq_none_iff.2 h.amounts, Option.map_none]
  rw [submitRefusal_format_pass h.format, rangeChecks, vref_check h.vref, tins_check h.tins, amounts]
  rfl

theorem submitRefusal_tables (h : TablesPass s b) : submitRefusal p b s = firstRefusal (recordChecks s p b) := by
  have held : colourantEntries s 1 (submitBody b).comps = none := by
    rw [colourantEntries_eq, List.findIdx?_eq_none_iff.2 h.held, Option.map_none]
  rw [submitRefusal_body h.toBodyPasses, tableChecks, h.cls, held]
  rfl

theorem submitRefusal_record (h : RecordPasses s p b) : submitRefusal p b s = firstRefusal (slotChecks s p b) := by
  have headroom : fitsHeadroom (newJob s p (submitBody b)).targetSum (s.headroomOf (submitBody b).cls)
      (submitBody b).vref = true := decide_eq_true h.headroom
  rw [submitRefusal_tables h.toTablesPass, recordChecks, h.substep, headroom]
  rfl

end

/-! ### The conditions of the statement pass the checks -/

/-- No earlier entry has the code of an entry where the codes are distinct. -/
theorem code_not_earlier {es : List CompEntry} (h : (es.map fun e => e.code).Nodup) {i : Nat} {e : CompEntry}
    (he : es[i]? = some e) : e.code ∉ (es.take i).map fun x => x.code := by
  obtain ⟨hi, rfl⟩ := List.getElem?_eq_some_iff.1 he
  intro hmem
  rw [← List.take_append_drop i es, List.map_append] at h
  have later : es[i].code ∈ (es.drop i).map fun x => x.code :=
    List.mem_map_of_mem (by rw [List.drop_eq_getElem_cons hi]; exact List.mem_cons_self)
  exact (List.nodup_append.1 h).2.2 _ hmem _ later rfl

theorem comps_length (b : Bytes) : (submitBody b).comps.length = u8 b 42 := by simp [submitBody]

theorem fields_pass {s : State} {p : Port} {b : Bytes} (h : SubmitFits s p b) :
    ∀ x ∈ (submitBody b).fields, x.2 = true := by
  obtain ⟨orderRef, colour, base, cls⟩ := h.texts
  have code : ∀ o, 37 ≤ o → o ≤ 41 → decide (u8 b o ≤ 1) = true := fun o lo hi =>
    decide_eq_true (h.codes o lo hi)
  simp only [SubmitBody.fields, List.forall_mem_cons]
  exact ⟨orderRef, colour, base, cls, code 37 (by decide) (by decide), code 38 (by decide) (by decide),
    code 39 (by decide) (by decide), code 40 (by decide) (by decide), code 41 (by decide) (by decide), nofun⟩

theorem entries_fit {s : State} {p : Port} {b : Bytes} (h : SubmitFits s p b) {i : Nat} {e : CompEntry}
    (he : (submitBody b).comps[i]? = some e) : e.Fits ((submitBody b).comps.take i) := by
  obtain ⟨hcode, hblank, ⟨d, hd, -⟩, hscale, -⟩ := h.entries e (List.mem_of_getElem? he)
  exact ⟨hcode, hblank, code_not_earlier h.distinct he, by rw [hd]; rfl, hscale⟩

/-- Amounts that are read and none above the range. -/
theorem not_large {e : CompEntry} {d : Nat} (hd : parseAmount e.amount = some d) (h : normalise d e.scale ≤ 2000000) :
    large e = false := by
  simp only [large, hd, Option.getD_some, decide_eq_false_iff_not, not_lt]
  exact h

/-- A SUBMIT that meets `SubmitFits` passes every check up to OVERFILL. -/
theorem passes_of_fits {s : State} {p : Port} {b : Bytes} (h : SubmitFits s p b) : RecordPasses s p b where
  format := submitFormat_pass ⟨h.count.1, h.count.2, h.length⟩ (fields_pass h) fun _ _ he => entries_fit h he
  vref := h.vref
  tins := h.tins
  amounts e he := by
    obtain ⟨-, -, ⟨d, hd, hmax⟩, -, -⟩ := h.entries e he
    exact not_large hd hmax
  cls := by
    obtain ⟨c, hc, hcode⟩ := h.cls
    rw [Bool.eq_false_iff]
    intro none
    exact List.find?_eq_none.1 (Option.isNone_iff_eq_none.1 none) c hc (beq_iff_eq.2 hcode)
  held e he := by
    obtain ⟨-, -, -, -, found⟩ := h.entries e he
    exact Bool.eq_false_iff.2 fun none => (posOfCode_isNone s _).1 none found
  substep := substepRefusal_pass <| by
    have code := h.codes 37 (le_refl _) (by decide)
    by_cases mark : u8 b 37 = 0
    · exact .inl (if_pos mark)
    · exact .inr (h.substep (by omega))
  headroom := h.headroom

/-! ### What a SUBMIT that passes them does -/

section
variable {s : State} {p : Port} {tag : Byte} {body : Bytes}

theorem submit_tableFull (hp : p ≠ .w) (ht : s.Takes p .submit tag body) (h : RecordPasses s p body)
    (hfull : ∀ i, (s.slot i).job ≠ none) :
    exec (.submit p tag body) s = .next (s.replied p .submit tag [0x07, 0, 0]) := by
  refine exec_submit_refused hp ht (r := nak .tableFull) ?_
  rw [submitRefusal_record h, slotChecks, refuseIf_of ((emptySlot_isNone s).2 hfull), firstRefusal_some]

/-- With an empty slot and free entries for every tin only the shortage step is left (R72). -/
theorem submitRefusal_short (h : RecordPasses s p body) {i : Fin 24} (hi : s.emptySlot = some i)
    (hpool : (submitBody body).n ≤ s.freeEntries) :
    submitRefusal p body s = shortRefusal s (newJob s p (submitBody body)) := by
  rw [submitRefusal_record h, slotChecks, refuseIf_of_not (by rw [hi]; rfl),
    refuseIf_of_not (decide_eq_false (not_lt.2 hpool)), firstRefusal_none, firstRefusal_none]
  cases shortRefusal s (newJob s p (submitBody body)) <;> rfl

theorem freeEntries_of_fits (h : SubmitFits s p body) : (submitBody body).n ≤ s.freeEntries := by
  have pool := h.pool
  show u8 body 36 ≤ 400 - (s.jobs.map fun x => x.2.n).sum
  omega

/-- For a body that fits, an empty slot found, the job `j` under the handle `h`. -/
structure Admits (s : State) (p : Port) (body : Bytes) (h : Handle) (j : Job) : Prop where
  fits : SubmitFits s p body
  slot : s.emptySlot = some h.slot
  gen : (s.slot h.slot).gen = h.gen
  job : newJob s p (submitBody body) = j

variable {h : Handle} {j : Job}

theorem submitRefusal_admits (ha : Admits s p body h j) : submitRefusal p body s = shortRefusal s j := by
  rw [submitRefusal_short (passes_of_fits ha.fits) ha.slot (freeEntries_of_fits ha.fits), ha.job]

theorem exec_submit_admits (hp : p ≠ .w) (ht : s.Takes p .submit tag body) (ha : Admits s p body h j)
    (hr : shortRefusal s j = none) :
    exec (.submit p tag body) s = .next
      (((s.popHold p).admitJob h j).select.answered p .submit tag (submitContent s h j)) := by
  rw [exec_submit_taken hp ht ((submitRefusal_admits ha).trans hr) ha.slot, ha.job, ha.gen]

/-- The port that sends a SUBMIT owns its job. -/
theorem owner_admits (ha : Admits s p body h j) : j.owner = p := by rw [← ha.job]; rfl

/-- Every need covered: the job is READY (R47, R72). -/
theorem submit_ready (hp : p ≠ .w) (ht : s.Takes p .submit tag body) (ha : Admits s p body h j)
    (hcover : ∀ c ∈ j.comps, CoversNeed s j c) :
    exec (.submit p tag body) s = .next
      ((((((s.popHold p).putJob h { j with
        state := .ready
        comps := j.comps.map fun c => { c with reserved := c.reserved + j.need c } }).joinQueue h).notify p
          (.jobState h .ready .admitted)).wake).select.answered p .submit tag
            [byte h.slot.val, byte h.gen, 2, 0, 0]) := by
  have short : s.admissionShort j.needs j.comps = none := admissionShort_none hcover
  have pass : shortRefusal s j = none := by
    rw [shortRefusal, short]
    cases j.shortage <;> rfl
  rw [exec_submit_admits hp ht ha pass, admitJob_ready ((admissionShort_popHold s p _ _).trans short), submitContent,
    short, owner_admits ha]
  rfl

/-- The first need not covered is that of `c`. -/
theorem admissionShort_of_split {pre : List Component} {c : Component} {post : List Component}
    (hcomps : j.comps = pre ++ c :: post) (hpre : ∀ x ∈ pre, CoversNeed s j x) (hc : ¬ CoversNeed s j c) :
    s.admissionShort j.needs j.comps = some (c.pos, j.need c) := by
  rw [Job.needs, hcomps]
  exact admissionShort_first hpre hc

/-- Some need not covered, under WAIT: the job joins the first short canister's wait list (R47). -/
theorem submit_waits (hp : p ≠ .w) (ht : s.Takes p .submit tag body) (ha : Admits s p body h j)
    {pre : List Component} {c : Component} {post : List Component} (hcomps : j.comps = pre ++ c :: post)
    (hpre : ∀ x ∈ pre, CoversNeed s j x) (hc : ¬ CoversNeed s j c) (hwait : u8 body 41 = 0) :
    exec (.submit p tag body) s = .next
      (((((((s.popHold p).putJob h { j with state := .waitingStock }).setWait c.pos (s.waitList c.pos ++ [h])).notify .w
        (.canisterWait c.pos h (j.need c) (j.need c * (s.can c.pos).kept.q))).notify p
          (.jobState h .waitingStock .stockWait)).select).answered p .submit tag
            [byte h.slot.val, byte h.gen, 1, 1, byte c.pos.val]) := by
  have short := admissionShort_of_split hcomps hpre hc
  have waits : j.shortage = .wait := by rw [← ha.job]; exact if_pos hwait
  have pass : shortRefusal s j = none := by rw [shortRefusal, waits]
  rw [exec_submit_admits hp ht ha pass, admitJob_waiting ((admissionShort_popHold s p _ _).trans short), submitContent,
    short, owner_admits ha]
  rfl

/-- Some need not covered, under REFUSE: SHORT with the figures of R179 (R47). -/
theorem submit_short (hp : p ≠ .w) (ht : s.Takes p .submit tag body) (ha : Admits s p body h j)
    {pre : List Component} {c : Component} {post : List Component} (hcomps : j.comps = pre ++ c :: post)
    (hpre : ∀ x ∈ pre, CoversNeed s j x) (hc : ¬ CoversNeed s j c) (hrefuse : u8 body 41 = 1) :
    exec (.submit p tag body) s = .next (s.replied p .submit tag
      ([0x09, 0, 0, byte c.pos.val] ++ be 4 (s.freeVol c.pos) ++ be 8 (j.need c * (s.can c.pos).kept.q) ++
        [flag !(s.waitList c.pos).isEmpty])) := by
  have short := admissionShort_of_split hcomps hpre hc
  have refuses : j.shortage = .refuse := by
    rw [← ha.job]
    exact if_neg (by rw [show (submitBody body).shortage = 1 from hrefuse]; decide)
  have answer : submitRefusal p body s = some ⟨.short, 0, 0, [byte c.pos.val] ++ be 4 (s.freeVol c.pos) ++
      be 8 (s.volume c.pos (j.need c)) ++ [flag !(s.waitList c.pos).isEmpty]⟩ := by
    rw [submitRefusal_admits ha, shortRefusal, refuses, short]
  exact exec_submit_refused hp ht answer

end

end Sys2Proof.Submit
end

section
/-! The refusals of SUBMIT in their order (R71, R72), the record of a job, and the statement O33. -/

namespace Sys2Proof.Submit

open Sys2Proof Sys2Proof.Machine

/-! ### The refusals -/

section
variable {s : State} {p : Port} {b : Bytes}

theorem refusal_format {r : Nak} (h : submitFormat b = some r) : submitRefusal p b s = some r := by
  rw [submitRefusal, h, firstRefusal_some]

/-- The first field at fault is named. -/
theorem refusal_field (hsized : SizedBody b) {pre post : List (Nat × Bool)} {f : Nat}
    (hfields : (submitBody b).fields = pre ++ (f, false) :: post) (hpre : ∀ x ∈ pre, x.2 = true) :
    submitRefusal p b s = some (nakField .format f) := by
  refine refusal_format ?_
  rw [submitFormat_sized hsized, hfields, firstRefusal_fields hpre]

/-- The first entry at fault is named. -/
theorem refusal_entry (hsized : SizedBody b) (hfields : ∀ x ∈ (submitBody b).fields, x.2 = true) {i : Nat}
    {e : CompEntry} (he : (submitBody b).comps[i]? = some e)
    (hpre : ∀ (m : Nat) (x : CompEntry), m < i → (submitBody b).comps[m]? = some x →
      x.Fits ((submitBody b).comps.take m))
    (hbad : ¬ e.Fits ((submitBody b).comps.take i)) : submitRefusal p b s = some (nakComp .format (i + 1)) := by
  have entry : formatEntries 1 [] (submitBody b).comps = some (nakComp .format (1 + i)) :=
    formatEntries_first (earlier := []) he (by simpa using hpre) (by simpa using hbad)
  refine refusal_format ?_
  rw [submitFormat_sized hsized, firstRefusal_fields_pass hfields, entry, firstRefusal_some, Nat.add_comm]

theorem refusal_vref (hformat : submitFormat b = none) (h : (submitBody b).vref < 250 ∨ 20000 < (submitBody b).vref) :
    submitRefusal p b s = some (nakField .range 5) := by
  have outside : Config.vrefRange.has (submitBody b).vref = false :=
    Bool.eq_false_iff.2 fun inside => by have := (range_has 250 20000 _).1 inside; omega
  rw [submitRefusal_format_pass hformat, rangeChecks, outside]
  rfl

theorem refusal_tins (hformat : submitFormat b = none)
    (hvref : 250 ≤ (submitBody b).vref ∧ (submitBody b).vref ≤ 20000)
    (h : (submitBody b).n = 0 ∨ 99 < (submitBody b).n) :
    submitRefusal p b s = some (nakField .range 6) := by
  have outside : Config.tinCountRange.has (submitBody b).n = false :=
    Bool.eq_false_iff.2 fun inside => by have := (range_has 1 99 _).1 inside; omega
  rw [submitRefusal_format_pass hformat, rangeChecks, vref_check hvref, outside]
  rfl

/-- The first entry with an amount above the range is named. -/
theorem refusal_amount (hformat : submitFormat b = none)
    (hvref : 250 ≤ (submitBody b).vref ∧ (submitBody b).vref ≤ 20000)
    (htins : 1 ≤ (submitBody b).n ∧ (submitBody b).n ≤ 99) {i : Nat} {e : CompEntry}
    (he : (submitBody b).comps[i]? = some e) (hlarge : large e = true)
    (hpre : ∀ x ∈ (submitBody b).comps.take i, large x = false) :
    submitRefusal p b s = some (nakComp .range (i + 1)) := by
  rw [submitRefusal_format_pass hformat, rangeChecks, vref_check hvref, tins_check htins, rangeEntries_eq,
    findIdx?_first he hlarge hpre, Nat.add_comm]
  rfl

theorem refusal_class (h : BodyPasses b) (hcls : ∀ c ∈ s.classes, c.code ≠ (submitBody b).cls) :
    submitRefusal p b s = some ⟨.noClass, 4, 0, (submitBody b).cls⟩ := by
  rw [submitRefusal_body h, tableChecks, classOf_isNone hcls]
  rfl

/-- The first entry whose colourant no installed canister carries is named. -/
theorem refusal_colourant (h : BodyPasses b) (hcls : (s.classOf (submitBody b).cls).isNone = false) {i : Nat}
    {e : CompEntry} (he : (submitBody b).comps[i]? = some e) (hmissing : (s.posOfCode e.code).isNone = true)
    (hpre : ∀ x ∈ (submitBody b).comps.take i, (s.posOfCode x.code).isNone = false) :
    submitRefusal p b s = some (nakComp .noColourant (i + 1)) := by
  rw [submitRefusal_body h, tableChecks, hcls, colourantEntries_eq, findIdx?_first he hmissing hpre, Nat.add_comm]
  rfl

theorem refusal_substep (h : TablesPass s b) {r : Nak} (hr : substepRefusal (newJob s p (submitBody b)) = some r) :
    submitRefusal p b s = some r := by
  rw [submitRefusal_tables h, recordChecks, hr, firstRefusal_some]

theorem refusal_overfill (h : TablesPass s b) (hsub : substepRefusal (newJob s p (submitBody b)) = none)
    (hover : s.headroomOf (submitBody b).cls * 1000000 * (submitBody b).vref <
      ((newJob s p (submitBody b)).comps.map fun c => c.exact).sum) :
    submitRefusal p b s = some (overfill s p b) := by
  have exceeds : fitsHeadroom (newJob s p (submitBody b)).targetSum (s.headroomOf (submitBody b).cls)
      (submitBody b).vref = false := decide_eq_false (not_le.2 hover)
  rw [submitRefusal_tables h, recordChecks, hsub, exceeds]
  rfl

theorem refusal_pool (h : RecordPasses s p b) (hslot : ∃ i, (s.slot i).job = none)
    (hfree : s.freeEntries < (submitBody b).n) :
    submitRefusal p b s = some ⟨.poolFull, 0, 0, be 2 s.freeEntries⟩ := by
  obtain ⟨i, hi⟩ := hslot
  have empty : s.emptySlot.isNone = false := Bool.eq_false_iff.2 fun none => (emptySlot_isNone s).1 none i hi
  rw [submitRefusal_record h, slotChecks, empty, refuseIf_of (decide_eq_true hfree)]
  rfl

end

/-! ### The whole statement -/

/-- Settles O33: the shortage step decides between admission, a wait list and SHORT; the checks before it answer in the
order of R71 and R72; the body and the amounts are read as R177 and R2 say. -/
theorem submitAdmitsAJobOrMakesItWait : Obligations.SubmitAdmitsAJobOrMakesItWait := by
  refine ⟨?admission, ?body, parseAmount_iff, ?record, ?jobs, fun _ _ => rfl, ?refusals⟩
  case admission =>
    intro s p tag body hp ht hfits
    refine ⟨submit_tableFull hp ht (passes_of_fits hfits), fun i hlow hi => ?_⟩
    have admits : Admits s p body ⟨i, (s.slot i).gen⟩ (newJob s p (submitBody body)) :=
      ⟨hfits, emptySlot_eq hlow hi, rfl, rfl⟩
    exact ⟨submit_ready hp ht admits, fun pre c post hcomps hpre hc =>
      ⟨submit_waits hp ht admits hcomps hpre hc, submit_short hp ht admits hcomps hpre hc⟩⟩
  case body => exact submitBody_read
  case record =>
    intro s p r t hcodes hclasses ht hcls hheld choice
    have cls : s.classOf r.cls = some t := hcls ▸ classOf_eq hclasses ht
    refine ⟨r.comps.map (newComponent s r.vref t.fill), by simp only [newJob, cls]; rfl, List.length_map _, ?_⟩
    intro i e q d he hq hcode hd target
    rw [List.getElem?_map, he, Option.map_some, newComponent_eq hcodes hq hcode hd]
  case jobs =>
    have slots : allSlots = List.finRange 24 := by decide
    intro s
    rw [State.jobs, slots]
  case refusals =>
    intro s p tag body hp ht r refused sized fitsTo held
    have answer : ∀ {x : Nak}, submitRefusal p body s = some x → refused x.bytes := exec_submit_refused hp ht
    refine ⟨fun hlen hcount => answer (refusal_format (submitFormat_count hlen hcount)),
      fun hlen => answer (refusal_format (submitFormat_length hlen)), fun hsized => ?_⟩
    refine ⟨fun pre f post hfields hpre => answer (refusal_field hsized hfields hpre), fun hfields => ?_⟩
    refine ⟨fun i e he hpre hbad => answer (refusal_entry hsized hfields he hpre hbad), fun hfit => ?_⟩
    have few : r.comps.length ≤ 6 := (comps_length body).trans_le hsized.2.1
    have fits : ∀ (i : Nat) (e : CompEntry), r.comps[i]? = some e → e.Fits (r.comps.take i) := fun i e he =>
      hfit i e ((List.getElem?_eq_some_iff.1 he).1.trans_le few) he
    have format := submitFormat_pass hsized hfields fits
    refine ⟨fun hv => answer (refusal_vref format hv), fun hv1 hv2 => ?_⟩
    refine ⟨fun hn => answer (refusal_tins format ⟨hv1, hv2⟩ hn), ?_⟩
    intro hn1 hn2 above
    have amount : ∀ e ∈ r.comps, (large e = true ↔ above e) := fun e he => by
      obtain ⟨i, hi⟩ := List.mem_iff_getElem?.1 he
      obtain ⟨-, -, -, read, -⟩ := fits i e hi
      exact large_iff read
    have notAbove : ∀ e ∈ r.comps, ¬ above e → large e = false := fun e he h =>
      Bool.eq_false_iff.2 fun x => h ((amount e he).1 x)
    refine ⟨fun i e he hl hpre => answer (refusal_amount format ⟨hv1, hv2⟩ ⟨hn1, hn2⟩ he
      ((amount e (List.mem_of_getElem? he)).2 hl) fun x hx => notAbove x (List.mem_of_mem_take hx) (hpre x hx)),
      fun hamounts => ?_⟩
    have bodyPasses : BodyPasses body :=
      ⟨format, ⟨hv1, hv2⟩, ⟨hn1, hn2⟩, fun e he => notAbove e he (hamounts e he)⟩
    refine ⟨fun hc => answer (refusal_class bodyPasses hc), fun pre t post hs hpre hcls => ?_⟩
    have cls : s.classOf r.cls = some t := classOf_first hs hpre hcls
    have clsHeld : (s.classOf r.cls).isNone = false := by rw [cls]; rfl
    have isHeld : ∀ e, held e → (s.posOfCode e.code).isNone = false := fun e h =>
      Bool.eq_false_iff.2 fun none => (posOfCode_isNone s _).1 none h
    refine ⟨fun i e he hmissing hpre => answer (refusal_colourant bodyPasses clsHeld he
      ((posOfCode_isNone s _).2 hmissing) fun x hx => isHeld x (hpre x hx)), ?_⟩
    intro hheld j sum free
    have tables : TablesPass s body := ⟨bodyPasses, clsHeld, fun e he => isHeld e (hheld e he)⟩
    refine ⟨fun hstop i c hc hsub hpre => answer (refusal_substep tables (substepRefusal_stop
      (if_neg (by rw [hstop]; decide)) hc hsub hpre)), fun hsub => ?_⟩
    have substep : substepRefusal j = none := substepRefusal_pass (hsub.imp_left fun mark => if_pos mark)
    have headroom : s.headroomOf r.cls = t.headroom := by rw [State.headroomOf, cls]; rfl
    refine ⟨fun hover => ?_, fun hunder => ?_⟩
    · have overfilled := answer (refusal_overfill tables substep (by rw [headroom]; exact hover))
      rw [overfill, headroom] at overfilled
      exact overfilled
    · have record : RecordPasses s p body := ⟨tables, substep, by rw [headroom]; exact hunder⟩
      exact ⟨submit_tableFull hp ht record, fun hslot hfree => answer (refusal_pool record hslot hfree)⟩

end Sys2Proof.Submit
end

section
/-! The law that joins the blocks is not kept by every step (O17): the counterexample and its laws. `State.Lawful`
does not say that a channel in DWELL has steps left, which a run never breaks (R108, R109: a channel with none left
becomes DONE). A lawful state may hold such a channel on a LOCKED canister; its dwell timer expires, the start check
starts nothing there (log entry 26), and the channel stays in DWELL with its timer stopped, against `State.ChansOk`. -/

namespace Sys2Proof.Counter

open Sys2Proof Sys2Proof.Machine

/-! ### A lawful state with a spent channel in DWELL -/

/-- A canister being refilled, with values in the ranges of R21. -/
def lockedCan : Canister :=
  { kept := { installed := true, code := [0x42, 0x4C, 0x4B], capacity := 500000000, heel := 0, lowMark := 0, q := 100
              density := 1000, stroke := 500, pulse := 10, dwell := 10, settleLimit := 1, recircTime := 5
              keepStir := 5, level := 1000000, lot := spaces 8, count := 0 }
    state := .locked, latch := false, demand := false, settleTimer := none, keepTimer := none, stirrer := false }

/-- A component of one step per tin: E = M = 25,000. -/
def oneStep : Component :=
  { pos := 0, code := [0x42, 0x4C, 0x4B], amount := [], scale := 0, a := 1, exact := 25000, qSnap := 100, cum := 0
    substep := false, lotSnap := spaces 8, reserved := 0, lotBreak := false }

/-- A job of one tin, which is at the station. -/
def oneTin : Job :=
  { owner := .a, orderRef := spaces 12, colour := spaces 16, base := spaces 4, cls := spaces 2, vref := 250, n := 1
    comps := [oneStep], dSubstep := .mark, dWeighOut := .mark, dWeighNone := .mark, dLotBreak := .mark
    shortage := .wait, state := .active, counted := 0, started := 1, delivered := 0, expiries := 0, pendingRe := none
    cause := none, results := [newResult 1] }

/-- The station tin, its one step dispensed. -/
def spentTin : TinCtx :=
  { handle := ⟨0, 1⟩, index := 1, stop := .none, stage := .dispensing, steps := [1], dispensed := [1], tare := none
    gross := none, net := none, expected := none, route := .normal, marks := Marks.none, word := none }

/-- D0 dwells with no step left. -/
def dwellChan : Channel :=
  { comp := 0, pos := 0, remaining := 0, burst := none, state := .dwell, dwellTimer := some 5 }

/-- The line in RUN with that tin at the station, and the expiry of D0's dwell timer next. -/
def dwelling : State :=
  { State.reset with
    canisters := State.reset.canisters.set 0 lockedCan
    slots := State.reset.slots.set 0 { gen := 1, job := some oneTin }
    station := .dispensing
    tin := some spentTin
    channels := State.reset.channels.set 0 dwellChan
    pending := [.dwellTimerExpiry 0] }

/-- The state after the expiry: D0 still in DWELL, its timer stopped. -/
def stuck : State :=
  { dwelling with channels := State.reset.channels.set 0 { dwellChan with dwellTimer := none }, pending := [] }

theorem step_dwelling : step dwelling = .next stuck :=
  congrArg Host.Outcome.next
    (show State.whenActive { dwelling with pending := [] } (fun s => s.dwellExpiry 0) = stuck by decide)

theorem stuck_breaks_chansOk : ¬ stuck.ChansOk := fun h => absurd (h.dwell 0) (by decide)

/-! ### Its laws -/

theorem dwelling_job {i : Fin 24} {j : Job} (h : (dwelling.slot i).job = some j) : i = 0 ∧ j = oneTin := by
  have slots : ∀ k : Fin 24, (dwelling.slot k).job = if k = 0 then some oneTin else none := by decide
  rw [slots i] at h
  split at h
  · exact ⟨‹_›, (Option.some.inj h).symm⟩
  · cases h

theorem dwelling_tin {t : TinCtx} (h : dwelling.tin = some t) : t = spentTin := (Option.some.inj h).symm

theorem dwelling_tin_job {t : TinCtx} {j : Job} (h : dwelling.tin = some t) (hj : dwelling.job? t.handle = some j) :
    t = spentTin ∧ j = oneTin := by
  obtain rfl := dwelling_tin h
  exact ⟨rfl, (dwelling_job (congrArg Slot.job (job?_eq_some hj))).2⟩

theorem dwelling_waits (p : Pos) : dwelling.waitList p = [] := by revert p; decide

theorem dwelling_mixer (m : MixerId) : dwelling.mixer m = Mixer.idle := by cases m <;> rfl

/-- Each component of the job is its one component. -/
theorem oneTin_comp {i : Nat} {c : Component} (h : oneTin.comps[i]? = some c) : i = 0 ∧ c = oneStep := by
  match i, h with
  | 0, h => exact ⟨rfl, (Option.some.inj h).symm⟩

theorem dwelling_stationOk : dwelling.StationOk where
  call := by decide
  callTimer := by decide
  tin := by decide
  stage t h := by obtain rfl := dwelling_tin h; rfl
  drip := by decide
  tare := nofun
  gross := nofun
  scale := by decide
  halted := nofun

theorem dwelling_stopOk : dwelling.StopOk where
  guard t h hg := by obtain rfl := dwelling_tin h; cases hg
  cancel t h hc := by obtain rfl := dwelling_tin h; cases hc
  reject t h hr := by obtain rfl := dwelling_tin h; cases hr

theorem dwelling_chansOk : dwelling.ChansOk := ⟨by decide, by decide, by decide⟩

theorem idle_ok (halted : Bool) : Mixer.idle.Ok halted where
  empty _ := rfl
  full h := by rcases h with h | h <;> cases h
  expected := rfl
  timer := rfl
  route _ h := by cases h
  mixing _ h := by cases h
  holding _ h := by cases h

theorem dwelling_mixersOk : dwelling.MixersOk where
  each m := by rw [dwelling_mixer]; exact idle_ok _
  one := by decide
  loading m h := by rw [dwelling_mixer] at h; cases h

theorem dwelling_lidderOk : dwelling.LidderOk where
  tin := by decide
  label := by decide
  dest := by decide
  command h := absurd h (by decide)
  stage t h := by rw [show dwelling.lidder = Lidder.start from rfl] at h; cases h
  nodup := by decide
  mixers m := by rw [dwelling_mixer]; cases m <;> decide
  station := ⟨fun h => absurd h (by decide), fun h => absurd h.1 (by decide)⟩

theorem dwelling_jobOk : dwelling.JobOk ⟨0, 1⟩ oneTin :=
  ⟨by decide, by decide, by decide, by decide, by decide, by decide, by decide⟩

theorem dwelling_jobsOk : dwelling.JobsOk where
  queued := ⟨by decide, nofun⟩
  waiting p := by rw [dwelling_waits]; exact ⟨List.nodup_nil, nofun⟩
  listed i j h hw := by obtain ⟨rfl, rfl⟩ := dwelling_job h; cases hw
  once p q h hp := by rw [dwelling_waits] at hp; cases hp
  called := nofun
  tins x hx := by
    obtain rfl := List.mem_singleton.1 (show x ∈ [(1, spentTin)] from hx)
    exact ⟨oneTin, by decide, by decide⟩
  rejected t j h hr := by obtain rfl := dwelling_tin h; cases hr
  each i j h := by obtain ⟨rfl, rfl⟩ := dwelling_job h; exact dwelling_jobOk

theorem dwelling_claimOk : dwelling.ClaimOk ⟨0, 1⟩ oneTin where
  sizes := nofun
  placed := nofun
  returned := nofun
  held _ _ i c hc := by obtain ⟨rfl, rfl⟩ := oneTin_comp hc; decide
  kept := nofun
  freed h := by rcases h with h | h <;> cases h

theorem dwelling_tinOk : dwelling.TinOk spentTin oneTin where
  steps := rfl
  dispensed := rfl
  within _ := le_refl _
  next _ := by decide
  whole h := by rcases h with h | h <;> cases h
  unlocked _ _ _ _ _ h := absurd h (lt_irrefl _)

/-- D0 alone is not FREE. -/
theorem dwelling_chan {d : ChanId} (h : (dwelling.chan d).state ≠ .free) : d = 0 := by revert d; decide

theorem dwelling_burst : (dwelling.chan 0).burst = none := by decide

theorem dwelling_chanOk : dwelling.ChanOk 0 spentTin oneTin where
  comp := ⟨oneStep, rfl, rfl⟩
  alone _ he _ := dwelling_chan he
  remaining := by decide
  burst k h := by rw [dwelling_burst] at h; cases h
  done h := absurd h (by decide)

theorem dwelling_stockOk : dwelling.StockOk where
  heel := by unfold State.HeelOk; decide
  codes := by unfold State.CodesOk; decide
  reserve := by unfold State.ReserveOk; decide
  claims i j h := by obtain ⟨rfl, rfl⟩ := dwelling_job h; exact dwelling_claimOk
  names i j h _ _ := by obtain ⟨rfl, rfl⟩ := dwelling_job h; exact ⟨by decide, by decide⟩
  tin t j h hj := by obtain ⟨rfl, rfl⟩ := dwelling_tin_job h hj; exact dwelling_tinOk
  chans t j d h hj hd := by
    obtain ⟨rfl, rfl⟩ := dwelling_tin_job h hj
    obtain rfl := dwelling_chan hd
    exact dwelling_chanOk
  call c j h := by rw [show dwelling.call = none from rfl] at h; cases h
  burst := by decide
  recirc := by decide

/-- A position of the state is P0's canister or vacant. -/
theorem dwelling_can (p : Pos) : dwelling.can p = lockedCan ∨ dwelling.can p = Canister.vacant := by
  revert p; decide

theorem dwelling_cansOk : dwelling.CansOk := by
  intro p
  rw [if_pos (show dwelling.power = .on from rfl)]
  rcases dwelling_can p with h | h <;> rw [h]
  · refine ⟨⟨by decide, by decide, by decide, nofun, by decide, by decide, fun _ => ?_⟩, rfl⟩
    constructor <;> decide
  · exact ⟨⟨by decide, by decide, by decide, nofun, by decide, by decide, nofun⟩, rfl⟩

theorem dwelling_cumOk : dwelling.CumOk := fun i j h => by
  obtain ⟨rfl, rfl⟩ := dwelling_job h; unfold Job.CumOk; decide

theorem dwelling_lawful : dwelling.Lawful where
  floor := ⟨dwelling_stationOk, dwelling_stopOk, dwelling_chansOk, dwelling_mixersOk, dwelling_lidderOk⟩
  jobs := dwelling_jobsOk
  stock := dwelling_stockOk
  cans := dwelling_cansOk
  pumps := by unfold State.PumpsOk; decide
  cum := dwelling_cumOk
  gens := by unfold State.GensOk; decide

/-- Refutes O17: the dwell timer of a channel in DWELL with no step left expires on a LOCKED canister; the state is
lawful, and after the step a channel stands in DWELL without its timer. -/
theorem not_stepsKeepCumulativeCounts : ¬ Obligations.StepsKeepCumulativeCounts := by
  intro h
  obtain ⟨-, keeps_lawful⟩ := h dwelling stuck step_dwelling
  exact stuck_breaks_chansOk (keeps_lawful dwelling_lawful).floor.chans

end Sys2Proof.Counter
end

section
/-! What the canister table keeps of a position (R41): no operation of the blocks writes it but the stock debit, and no
request but INSTALL, REMOVE, CALIBRATE, REFILL-END and ADJUST. -/

namespace Sys2Proof.Kept

open Sys2Proof Sys2Proof.Machine

/-! ### The kept fields of every position -/

/-- The kept fields of the sixteen positions. -/
def kepts (s : State) : Vector CanRecord 16 := mapVec Canister.kept s.canisters

theorem kept_can (s : State) (p : Pos) : (s.can p).kept = (kepts s)[p] := by simp [kepts, State.can]

theorem kept_congr {s t : State} (h : kepts t = kepts s) (p : Pos) : (t.can p).kept = (s.can p).kept := by
  rw [kept_can, kept_can, h]

@[simp] theorem mapVec_kept (s : State) : mapVec Canister.kept s.canisters = kepts s := rfl

/-- An update of the state that names its fields. -/
@[simp] theorem kepts_mk (power guardInput line ports canisters pumps waits slots classes queue quota call callTimer
    gateOpen station tin channels dripTimer capture scaleTimer m1 m2 lidder lanes store sent pending) :
    kepts ⟨power, guardInput, line, ports, canisters, pumps, waits, slots, classes, queue, quota, call, callTimer,
      gateOpen, station, tin, channels, dripTimer, capture, scaleTimer, m1, m2, lidder, lanes, store, sent, pending⟩ =
      mapVec Canister.kept canisters := rfl

theorem kepts_of_serves {s t : State} (h : s.Serves t) : kepts t = kepts s := by
  have stir (c : Canister) : c.sansStir.kept = c.kept := rfl
  have same := congrArg kepts h.same
  simpa [State.sansService, kepts, mapVec, Function.comp_def, stir] using same

theorem kepts_of_moves {s t : State} (h : s.Moves t) : kepts t = kepts s := by
  have stir (c : Canister) : c.sansStir.kept = c.kept := rfl
  have same := congrArg kepts h.same
  simpa [State.sansMoves, State.sansService, kepts, mapVec, Function.comp_def, stir] using same

variable (s : State)

/-! ### Updates of one record -/

@[simp] theorem kepts_setPort (p : Port) (v : PortState) : kepts (s.setPort p v) = kepts s := rfl
@[simp] theorem kepts_setPump (p : Pos) (v : Pump) : kepts (s.setPump p v) = kepts s := rfl
@[simp] theorem kepts_setChan (d : ChanId) (c : Channel) : kepts (s.setChan d c) = kepts s := rfl
@[simp] theorem kepts_setChanState (d : ChanId) (x : ChanState) : kepts (s.setChanState d x) = kepts s := rfl
@[simp] theorem kepts_freeChans : kepts s.freeChans = kepts s := rfl
@[simp] theorem kepts_setSlot (i : Fin 24) (v : Slot) : kepts (s.setSlot i v) = kepts s := rfl
@[simp] theorem kepts_freeSlot (i : Fin 24) : kepts (s.freeSlot i) = kepts s := rfl
@[simp] theorem kepts_setWait (p : Pos) (l : List Handle) : kepts (s.setWait p l) = kepts s := rfl
@[simp] theorem kepts_leaveWaits (h : Handle) : kepts (s.leaveWaits h) = kepts s := rfl
@[simp] theorem kepts_modTin (f : TinCtx → TinCtx) : kepts (s.modTin f) = kepts s := rfl
@[simp] theorem kepts_send (c : Sent) : kepts (s.send c) = kepts s := rfl
@[simp] theorem kepts_storeCan (p : Pos) : kepts (s.storeCan p) = kepts s := rfl
@[simp] theorem kepts_startTare : kepts s.startTare = kepts s := rfl
@[simp] theorem kepts_startGross : kepts s.startGross = kepts s := rfl
@[simp] theorem kepts_stopCapture : kepts s.stopCapture = kepts s := rfl
@[simp] theorem kepts_withdrawCall : kepts s.withdrawCall = kepts s := rfl
@[simp] theorem kepts_rotate (h : Handle) : kepts (s.rotate h) = kepts s := rfl
@[simp] theorem kepts_leaveClaims (m : MixerId) : kepts (s.leaveClaims m) = kepts s := rfl
@[simp] theorem kepts_setMixer (m : MixerId) (v : Mixer) : kepts (s.setMixer m v) = kepts s := by cases m <;> rfl

@[simp] theorem kepts_modJob (h : Handle) (f : Job → Job) : kepts (s.modJob h f) = kepts s := by
  unfold State.modJob; split <;> rfl

/-- A canister that changes all but its kept fields. -/
theorem kepts_setCan {p : Pos} {c : Canister} (h : c.kept = (s.can p).kept) : kepts (s.setCan p c) = kepts s :=
  mapVec_set_same p.isLt h

/-! ### Notices, walks, selections and moves of tins -/

@[simp] theorem kepts_notify (p : Port) (n : Notice) : kepts (s.notify p n) = kepts s := rfl
@[simp] theorem kepts_notifyEach (l : List Port) (n : Notice) : kepts (s.notifyEach l n) = kepts s :=
  kepts_of_serves (serves_notifyEach l n s)
@[simp] theorem kepts_notifyAll (n : Notice) : kepts (s.notifyAll n) = kepts s := kepts_notifyEach s _ n
@[simp] theorem kepts_notifyJob (h : Handle) (c : Cause) : kepts (s.notifyJob h c) = kepts s :=
  kepts_of_serves (serves_notifyJob s h c)
@[simp] theorem kepts_notifyWait (p : Pos) (h : Handle) (k : Nat) : kepts (s.notifyWait p h k) = kepts s := rfl
@[simp] theorem kepts_joinQueue (h : Handle) : kepts (s.joinQueue h) = kepts s := kepts_of_serves (serves_joinQueue s h)
@[simp] theorem kepts_leaveQueue (h : Handle) : kepts (s.leaveQueue h) = kepts s := rfl
@[simp] theorem kepts_setMode (m : LineMode) : kepts (s.setMode m) = kepts s := kepts_of_serves (serves_setMode s m)
@[simp] theorem kepts_examinePark : kepts s.examinePark = kepts s := kepts_of_serves (serves_examinePark s)
@[simp] theorem kepts_wake : kepts s.wake = kepts s := kepts_of_serves (serves_wake s)
@[simp] theorem kepts_wakeIf (b : Bool) : kepts (s.wakeIf b) = kepts s := kepts_of_serves (serves_wakeIf s b)
@[simp] theorem kepts_examineRecirc (p : Pos) : kepts (s.examineRecirc p) = kepts s :=
  kepts_of_serves (serves_examineRecirc s p)
@[simp] theorem kepts_askRecirc (p : Pos) : kepts (s.askRecirc p) = kepts s := kepts_of_serves (serves_askRecirc s p)
@[simp] theorem kepts_walk (p : Pos) : kepts (s.walk p) = kepts s := kepts_of_serves (serves_walk s p)
@[simp] theorem kepts_walkAll (l : List Pos) : kepts (s.walkAll l) = kepts s := kepts_of_serves (serves_walkAll s l)
@[simp] theorem kepts_suspend (h : Handle) (c : Cause) : kepts (s.suspend h c) = kepts s :=
  kepts_of_serves (serves_suspend s h c)
@[simp] theorem kepts_selectAfter (before : State) : kepts (s.selectAfter before) = kepts s :=
  kepts_of_serves (serves_selectAfter s before)
@[simp] theorem kepts_select : kepts s.select = kepts s := kepts_of_serves (serves_select s)
@[simp] theorem kepts_calmJob (h : Handle) : kepts (s.calmJob h) = kepts s := kepts_of_serves (serves_calmJob s h)
@[simp] theorem kepts_contextEnded (h : Handle) : kepts (s.contextEnded h) = kepts s :=
  kepts_of_serves (serves_contextEnded s h)
@[simp] theorem kepts_stationLeaves : kepts s.stationLeaves = kepts s := kepts_of_moves (moves_stationLeaves s)
@[simp] theorem kepts_examineTransfer : kepts s.examineTransfer = kepts s := kepts_of_moves (moves_examineTransfer s)
@[simp] theorem kepts_examineLidder : kepts s.examineLidder = kepts s := kepts_of_moves (moves_examineLidder s)
@[simp] theorem kepts_joinClaim (x : Source) : kepts (s.joinClaim x) = kepts s := kepts_of_moves (moves_joinClaim s x)

/-- A fold of operations that leave the kept fields. -/
theorem kepts_foldl {α : Type} {f : State → α → State} (hf : ∀ s a, kepts (f s a) = kepts s) (l : List α) :
    kepts (l.foldl f s) = kepts s := by
  induction l generalizing s with
  | nil => rfl
  | cons a l ih => exact (ih _).trans (hf s a)

/-! ### Reservation unit -/

@[simp] theorem kepts_failAttempt (t : TinCtx) : kepts (s.failAttempt t) = kepts s := by
  unfold State.failAttempt
  split
  · rfl
  · split <;> simp

@[simp] theorem kepts_retryReserve (h : Handle) : kepts (s.retryReserve h).1 = kepts s := by
  unfold State.retryReserve
  split
  · rfl
  · split
    · rfl
    · split <;> simp

@[simp] theorem kepts_spoilAttempt (t : TinCtx) : kepts (s.spoilAttempt t) = kepts s := by
  unfold State.spoilAttempt; dsimp only; split <;> simp

@[simp] theorem kepts_reserveReport (h : Handle) (i : Nat) (p : Pos) (k : Nat) :
    kepts (s.reserveReport h i p k) = kepts s := by
  unfold State.reserveReport
  split
  · rfl
  · split
    · dsimp only; split <;> simp
    · simp

@[simp] theorem kepts_releaseClaim (h : Handle) : kepts (s.releaseClaim h) = kepts s := kepts_modJob _ _ _

@[simp] theorem kepts_admitJob (h : Handle) (j : Job) : kepts (s.admitJob h j) = kepts s := by
  unfold State.admitJob; split <;> simp

/-! ### Mixers, lidder and lanes -/

@[simp] theorem kepts_handoffNormal : kepts s.handoffNormal = kepts s := kepts_examineTransfer _

@[simp] theorem kepts_handoffReject : kepts s.handoffReject = kepts s := kepts_joinClaim _ _

@[simp] theorem kepts_placeTin : kepts s.placeTin = kepts s := by
  have deliver (u : State) (t : TinCtx) (x : Lane) : kepts (u.deliver t x) = kepts u := by
    unfold State.deliver; split <;> simp
  unfold State.placeTin
  split
  · dsimp only; split <;> simp [deliver]
  · rfl

@[simp] theorem kepts_examineLane : kepts s.examineLane = kepts s := by
  unfold State.examineLane
  split
  · split <;> simp
  · rfl

@[simp] theorem kepts_remix (m : MixerId) : kepts (s.remix m) = kepts s := by
  unfold State.remix; split <;> simp

@[simp] theorem kepts_relid : kepts s.relid = kepts s := by
  unfold State.relid
  split
  · split
    · split <;> simp
    · rfl
  · simp
  · simp

/-! ### Dispense head and weigh unit -/

@[simp] theorem kepts_startOnFit (d : ChanId) : kepts (s.startOnFit d) = kepts s := by
  unfold State.startOnFit
  split
  · rfl
  · split <;> rfl
  · rfl
  · rfl

@[simp] theorem kepts_startCheck (d : ChanId) : kepts (s.startCheck d) = kepts s := by
  unfold State.startCheck
  split
  · rfl
  · split
    · rfl
    · rfl
    · split
      · rfl
      · split <;> simp

@[simp] theorem kepts_resumeRecirc (p : Pos) : kepts (s.resumeRecirc p) = kepts s :=
  kepts_foldl s (fun u d => by split <;> simp) _

@[simp] theorem kepts_resumeCharge (p : Pos) : kepts (s.resumeCharge p) = kepts s :=
  kepts_foldl s (fun u d => by split <;> simp) _

@[simp] theorem kepts_assignTo (d : ChanId) : kepts (s.assignTo d) = kepts s := by
  unfold State.assignTo
  split
  · split
    · rfl
    · split <;> simp
  · rfl

@[simp] theorem kepts_assignAll : kepts s.assignAll = kepts s :=
  kepts_foldl s (fun u d => by split <;> simp) _

@[simp] theorem kepts_endDispensing : kepts s.endDispensing = kepts s := by
  unfold State.endDispensing
  split
  · rfl
  · split
    · split <;> simp [State.freeChans]
    · rfl

@[simp] theorem kepts_settleGuard : kepts s.settleGuard = kepts s := by
  have keep : kepts s.keepTin = kepts s := by unfold State.keepTin; dsimp only; split <;> rfl
  have spoil (t : TinCtx) : kepts (s.spoilTin t) = kepts s := by simp [State.spoilTin]
  unfold State.settleGuard
  split
  · rfl
  · split
    · split <;> simp [keep, spoil]
    · rfl

@[simp] theorem kepts_channelNext (d : ChanId) : kepts (s.channelNext d) = kepts s := by
  unfold State.channelNext
  split
  · rfl
  · split
    · simp
    · simp
    · split
      · simp [State.channelDone]
      · split <;> simp

@[simp] theorem kepts_pumpEnds (p : Pos) (n : Nat) : kepts (s.pumpEnds p n) = kepts s := by simp [State.pumpEnds]

@[simp] theorem kepts_cancelTin : kepts s.cancelTin = kepts s := by
  unfold State.cancelTin; dsimp only; split <;> simp [State.modTin, State.stopCapture]

@[simp] theorem kepts_guardTin : kepts s.guardTin = kepts s := by
  unfold State.guardTin
  dsimp only
  split
  · rfl
  · split
    · rfl
    · split
      · exact kepts_settleGuard _
      · rfl

@[simp] theorem kepts_endTare (m : Option Nat) : kepts (s.endTare m) = kepts s := by
  simp [State.endTare, State.tareSettled, State.modTin, State.stopCapture]

@[simp] theorem kepts_endGross (m : Option Nat) : kepts (s.endGross m) = kepts s := by
  have judge (u : State) : kepts u.judge = kepts u := by
    have count (t : TinCtx) (j : Job) (w n : Bool) : kepts (u.countTin t j w n) = kepts u := by simp [State.countTin]
    have reject (t : TinCtx) (j : Job) (w n : Bool) (c : Cause) : kepts (u.rejectTin t j w n c) = kepts u := by
      simp [State.rejectTin]
    unfold State.judge
    split
    · rfl
    · split
      · rfl
      · split
        · exact count _ _ _ _
        · exact count _ _ _ _
        · split <;> simp [count, reject]
        · split <;> simp [count, reject]
  simp [State.endGross, judge]

end Sys2Proof.Kept
end

section
/-! The kept fields over each event and each request's effect (R41): the burst reports rewrite one position, every other
event none. -/

namespace Sys2Proof.Kept

open Sys2Proof Sys2Proof.Machine

variable (s : State)

/-! ### The stock debit -/

/-- The kept fields after a debit of `k` steps (R30). -/
def debited (r : CanRecord) (k : Nat) : CanRecord := { r with level := r.level - k * r.q, count := nextCount r.count }

/-- A canister rewritten in its kept fields. -/
theorem kepts_putKept (p : Pos) (c : Canister) : kepts (s.setCan p c) = (kepts s).set p c.kept := by
  ext i hi
  simp only [kepts, State.setCan, mapVec_getElem, Vector.getElem_set]
  split <;> rfl

@[simp] theorem kepts_examineLow (p : Pos) : kepts (s.examineLow p) = kepts s := by
  unfold State.examineLow
  dsimp only
  split
  · exact kepts_setCan s rfl
  · rfl

theorem afterDebit_kept (c : Canister) : c.afterDebit.kept = c.kept := by unfold Canister.afterDebit; split <;> rfl

theorem kepts_debit (p : Pos) {k : Nat} (hk : k ≠ 0) :
    kepts (s.debit p k) = (kepts s).set p (debited (s.can p).kept k) := by
  unfold State.debit
  rw [if_neg hk]
  dsimp only
  rw [kepts_setCan _ (afterDebit_kept _), kepts_examineLow, kepts_storeCan, kepts_putKept]
  rfl

theorem kepts_burstReport (d : ChanId) {k : Nat} (hk : k ≠ 0) :
    kepts (s.burstReport d k) =
      (kepts s).set (s.chan d).pos (debited (s.can (s.chan d).pos).kept k) := by
  unfold State.burstReport
  dsimp only
  rw [kepts_channelNext, kepts_examineRecirc]
  split
  · rw [kepts_reserveReport, kepts_debit _ _ hk]; rfl
  · rw [kepts_debit _ _ hk]; rfl

theorem kepts_burstReport_zero (d : ChanId) : kepts (s.burstReport d 0) = kepts s := by
  unfold State.burstReport
  dsimp only
  rw [kepts_channelNext, kepts_examineRecirc]
  split <;> simp [State.debit]

/-! ### Events -/

theorem kepts_chargeDone (p : Pos) : kepts (s.chargeDone p) = kepts s := by
  unfold State.chargeDone; split <;> simp

theorem kepts_recircDone (p : Pos) : kepts (s.recircDone p) = kepts s := by
  unfold State.recircDone
  split
  · dsimp only
    split
    · rw [kepts_resumeRecirc]; exact kepts_setCan _ rfl
    · simp
  all_goals rfl

theorem kepts_endCapture (m : Option Nat) : kepts (s.endCapture m) = kepts s := by
  unfold State.endCapture; split <;> simp

theorem kepts_reading (m : Nat) (stable overload : Bool) : kepts (s.reading m stable overload) = kepts s := by
  unfold State.reading; split <;> simp [kepts_endCapture]

theorem kepts_scaleTimeout : kepts s.scaleTimeout = kepts s := by
  unfold State.scaleTimeout; split <;> simp [kepts_endCapture]

theorem kepts_scan (cls base : Text) : kepts (s.scan cls base) = kepts s := by
  have takesIn (c : Call) (j : Job) : kepts (s.admitTin c j) = kepts s := by simp [State.admitTin]
  unfold State.scan
  split
  · rfl
  · split
    · rfl
    · split
      · rfl
      · split <;> simp [takesIn]

theorem kepts_settleExpiry (p : Pos) : kepts (s.settleExpiry p) = kepts s := by
  unfold State.settleExpiry
  dsimp only
  split
  · split <;> exact kepts_setCan s rfl
  · rfl

theorem kepts_keepStirExpiry (p : Pos) : kepts (s.keepStirExpiry p) = kepts s := by
  unfold State.keepStirExpiry
  dsimp only
  split
  · rw [kepts_resumeRecirc]; exact kepts_setCan s rfl
  · rfl

theorem kepts_dwellExpiry (d : ChanId) : kepts (s.dwellExpiry d) = kepts s := by
  unfold State.dwellExpiry; dsimp only; split <;> simp

theorem kepts_dripExpiry : kepts s.dripExpiry = kepts s := by
  unfold State.dripExpiry
  split
  · rfl
  · split
    · rfl
    · split <;> rfl

theorem kepts_loaded (m : MixerId) : kepts (s.loaded m) = kepts s := by unfold State.loaded; split <;> simp

theorem kepts_clampFault (m : MixerId) : kepts (s.clampFault m) = kepts s := by
  unfold State.clampFault; split <;> simp [State.goOut]

theorem kepts_mixExpiry (m : MixerId) : kepts (s.mixExpiry m) = kepts s := by
  unfold State.mixExpiry; dsimp only; split <;> simp

theorem kepts_lidded : kepts s.lidded = kepts s := by
  unfold State.lidded
  split
  · rfl
  · split
    · split <;> simp [State.laneWait]
    · rfl

theorem kepts_tinTaken (x : Lane) : kepts (s.tinTaken x) = kepts s := by
  unfold State.tinTaken; dsimp only; split <;> simp

theorem kepts_callExpiry : kepts s.callExpiry = kepts s := by
  have suspend (u : State) (h : Handle) : kepts (u.expirySuspend h) = kepts u := by
    unfold State.expirySuspend
    split
    · split <;> simp
    · rfl
  unfold State.callExpiry
  split
  · rfl
  · split <;> simp [suspend]

theorem kepts_stopBlocks : kepts s.stopBlocks = kepts s := by
  have atGuard (c : Canister) : c.atGuard.kept = c.kept := by unfold Canister.atGuard; split <;> rfl
  unfold State.stopBlocks
  dsimp only
  rw [kepts_guardTin]
  ext i hi
  simp only [kepts, mapVec_getElem, atGuard]

theorem kepts_guardOpened : kepts s.guardOpened = kepts s := by
  unfold State.guardOpened
  split
  · split <;> simp
  · simp [State.haltLine, kepts_stopBlocks, State.send]

theorem kepts_guardClosed : kepts s.guardClosed = kepts s := by unfold State.guardClosed; split <;> simp

/-! ### The effects of requests -/

variable (b : Bytes)

theorem kepts_cancelEffect : kepts (cancelEffect b s).1 = kepts s := by
  have dropCall (u : State) (h : Handle) : kepts (u.dropCall h) = kepts u := by
    unfold State.dropCall; split <;> rfl
  have dropTin (u : State) (h : Handle) : kepts (u.dropTin h) = kepts u := by
    unfold State.dropTin
    split
    · split <;> simp
    · rfl
  unfold cancelEffect
  split <;> simp [State.cancelJob, State.cancelWork, dropCall, dropTin]

theorem kepts_resumeEffect : kepts (resumeEffect b s).1 = kepts s := by
  have reserve (u : State) (h : Handle) (c : Option Cause) : kepts (u.resumeReserve h c).1 = kepts u := by
    unfold State.resumeReserve; split <;> simp
  unfold resumeEffect
  split <;> simp [State.resumeJob, reserve]

theorem kepts_parkEffect : kepts (parkEffect s).1 = kepts s := by
  have park : kepts s.park = kepts s := by
    unfold State.park
    split
    · split <;> simp
    · rfl
  simp [parkEffect, park]

theorem kepts_wakeEffect : kepts (wakeEffect s).1 = kepts s := by simp [wakeEffect]

theorem kepts_resumeLineEffect : kepts (resumeLineEffect s).1 = kepts s := by
  have retare (u : State) : kepts u.retare = kepts u := by unfold State.retare; split <;> simp
  have restored : kepts (allPos.foldl State.examineRecirc (s.setMode .run)) = kepts s :=
    (kepts_foldl _ kepts_examineRecirc _).trans (kepts_setMode s _)
  unfold resumeLineEffect
  split
  · simp [State.leaveHalted, retare, restored]
  · rfl

theorem kepts_mixerReturnEffect : kepts (mixerReturnEffect b s).1 = kepts s := by
  unfold mixerReturnEffect; dsimp only; split <;> simp

theorem kepts_refillBeginEffect : kepts (refillBeginEffect b s).1 = kepts s := kepts_setCan s rfl

end Sys2Proof.Kept
end

section
/-! The laws of the canister table and the piston charges over every command (R21 to R25, R33, R99). -/

namespace Sys2Proof.StockLaws

open Sys2Proof Sys2Proof.Machine Sys2Proof.Kept

/-! ### Keeping the laws -/

/-- A change of the state that keeps the canister laws, the piston charges, the distinct codes and the heels. -/
structure KeepsStock (s t : State) : Prop where
  cans : s.CansOk → t.CansOk
  pumps : s.PumpsOk → t.PumpsOk
  codes : s.CodesOk → t.CodesOk
  heel : s.HeelOk → t.HeelOk

theorem KeepsStock.refl (s : State) : KeepsStock s s := ⟨id, id, id, id⟩

theorem KeepsStock.trans {a b c : State} (h : KeepsStock a b) (k : KeepsStock b c) : KeepsStock a c :=
  ⟨k.cans ∘ h.cans, k.pumps ∘ h.pumps, k.codes ∘ h.codes, k.heel ∘ h.heel⟩

theorem cansOk_of_works {s t : State} (on : s.power = .on) (w : Works s t) (h : s.CansOk) : t.CansOk := fun p => by
  have sound := h p
  rw [if_pos on] at sound
  rw [if_pos (w.power.trans on)]
  exact (w.cans p).sound sound

theorem pumpsOk_of_works {s t : State} (w : Works s t) (h : s.PumpsOk) : t.PumpsOk := fun p => w.pumps p (h p)

/-- The codes stay distinct where every position keeps its code and stays installed or vacant. -/
theorem codesOk_of_same {s t : State} (installed : ∀ p, (t.can p).kept.installed = (s.can p).kept.installed)
    (code : ∀ p, (t.can p).kept.code = (s.can p).kept.code) (h : s.CodesOk) : t.CodesOk := fun p q hp hq e =>
  h p q (installed p ▸ hp) (installed q ▸ hq) (by rw [← code, ← code, e])

/-- Work of the blocks that writes no kept field. -/
theorem keepsStock_of_works {s t : State} (on : s.power = .on) (w : Works s t) (k : kepts t = kepts s) :
    KeepsStock s t where
  cans := cansOk_of_works on w
  pumps := pumpsOk_of_works w
  codes := codesOk_of_same (fun p => by rw [kept_congr k]) fun p => by rw [kept_congr k]
  heel h p := by rw [kept_congr k]; exact h p

/-- A change that touches no canister and no pump. -/
theorem keepsStock_of_eq {s t : State} (power : t.power = s.power) (cans : t.canisters = s.canisters)
    (pumps : t.pumps = s.pumps) : KeepsStock s t where
  cans h p := by rw [can_congr cans, power]; exact h p
  pumps h p := by rw [can_congr cans, pump_congr pumps]; exact h p
  codes := codesOk_of_same (fun p => by rw [can_congr cans]) fun p => by rw [can_congr cans]
  heel h p := by rw [can_congr cans]; exact h p

theorem kept_set {s t : State} {p : Pos} {r : CanRecord} (k : kepts t = (kepts s).set p r) (q : Pos) :
    (t.can q).kept = if p = q then r else (s.can q).kept := by
  rw [kept_can, kept_can, k]
  simp [Vector.getElem_set, Fin.ext_iff]

/-- Work of the blocks that rewrites one position under its code keeps the codes. -/
theorem codesOk_of_set {s t : State} (w : Works s t) {p : Pos} {r : CanRecord} (k : kepts t = (kepts s).set p r)
    (code : r.code = (s.can p).kept.code) : s.CodesOk → t.CodesOk :=
  codesOk_of_same (fun q => (w.cans q).installed) fun q => by
    rw [kept_set k]; split
    · next e => exact e ▸ code
    · rfl

/-- Positions at or above their heels stay so where one is rewritten at or above its own. -/
theorem heelOk_of_set {s t : State} {p : Pos} {r : CanRecord} (k : kepts t = (kepts s).set p r)
    (heel : r.installed = true → r.heel ≤ r.level) (h : s.HeelOk) : t.HeelOk := fun q => by
  rw [kept_set k]
  split
  · exact heel
  · exact h q

/-! ### Requests -/

/-- A request keeps the laws where its effect does: its frame and its answer touch its port alone. -/
theorem keepsStock_take {s : State} {p : Port} {k : ReqKind} {tag : Byte} {body : Bytes}
    {refusal : State → Option Nak} {effect : State → State × Bytes}
    (h : ∀ u, u.power = .on → refusal u = none → KeepsStock u (effect u).1) :
    KeepsStock s (s.take p k tag body refusal effect) := by
  rcases take_cases p k tag body refusal effect s with e | ⟨-, _, e⟩ | ⟨⟨on, -⟩, passes, e⟩
  · rw [e]; exact .refl s
  · rw [e]; exact keepsStock_of_eq rfl rfl rfl
  · rw [e]
    have popped : KeepsStock s (s.popHold p) := keepsStock_of_eq rfl rfl rfl
    exact (popped.trans (h _ on passes)).trans (keepsStock_of_eq rfl rfl rfl)

theorem keepsStock_take_works {s : State} {p : Port} {k : ReqKind} {tag : Byte} {body : Bytes}
    {refusal : State → Option Nak} {effect : State → State × Bytes} (w : ∀ u, Works u (effect u).1)
    (kept : ∀ u, kepts (effect u).1 = kepts u) : KeepsStock s (s.take p k tag body refusal effect) :=
  keepsStock_take fun u on _ => keepsStock_of_works on (w u) (kept u)

/-- A request that only reads. -/
theorem keepsStock_take_read {s : State} {p : Port} {k : ReqKind} {tag : Byte} {body : Bytes}
    {refusal : State → Option Nak} {content : State → Bytes} :
    KeepsStock s (s.take p k tag body refusal fun u => (u, content u)) := keepsStock_take fun u _ _ => .refl u

end Sys2Proof.StockLaws
end

section
/-! The laws of the canister table over each request (R32 to R40, R72). -/

namespace Sys2Proof.StockLaws

open Sys2Proof Sys2Proof.Machine Sys2Proof.Kept

/-! ### Checks that refuse nothing -/

@[simp] theorem firstRefusal_cons_eq_none (x : Option Nak) (l : List (Option Nak)) :
    firstRefusal (x :: l) = none ↔ x = none ∧ firstRefusal l = none := by
  cases x <;> simp [firstRefusal]

@[simp] theorem refuseIf_eq_none (bad : Bool) (r : Nak) : refuseIf bad r = none ↔ bad = false := by
  cases bad <;> simp [refuseIf]

theorem rangeRefusal_eq_none (l : List (Bool × Nat)) : rangeRefusal l = none ↔ ∀ x ∈ l, x.1 = true := by
  simp [rangeRefusal]

/-- The checks of the declared fields are their ranges (R21). -/
theorem declaredChecks_iff (r : CanRecord) : (∀ x ∈ declaredChecks r, x.1 = true) ↔ r.Declared := by
  simp only [declaredChecks, List.forall_mem_cons, List.not_mem_nil, false_implies, implies_true, and_true,
    Bool.and_eq_true, Bool.or_eq_true, decide_eq_true_eq, Config.capacityRange, Config.heelRange, Config.lowMarkRange,
    Config.stepVolumeRange, Config.densityRange, Config.strokeRange, Config.pulseRange, Config.dwellRange,
    Config.settleLimitRange, Config.recircTimeRange, Config.keepStirRange, Submit.range_has, Nat.zero_le, true_and]
  exact ⟨fun ⟨a, b, c, d, e, f, g, h, i, j, k⟩ => ⟨a, b, c, d, e, f, g, h, i, j, k⟩,
    fun ⟨a, b, c, d, e, f, g, h, i, j, k⟩ => ⟨a, b, c, d, e, f, g, h, i, j, k⟩⟩

/-! ### INSTALL and REMOVE -/

/-- A lawful canister under a code that no other bears takes a position, with an empty piston. -/
theorem keepsStock_put {s : State} (on : s.power = .on) (p : Pos) {c : Canister} (sound : c.Sound)
    (code : c.kept.installed = true → ∀ q, (s.can q).kept.installed = true → (s.can q).kept.code ≠ c.kept.code)
    (heel : c.kept.installed = true → c.kept.heel ≤ c.kept.level) :
    KeepsStock s ((s.setCan p c).setPump p Pump.start) where
  cans h q := by
    have lawful := h q
    rw [if_pos on] at lawful
    rw [setPump_power, setCan_power, if_pos on, can_setPump, can_setCan]
    split
    · exact sound
    · exact lawful
  pumps h q := by
    rw [can_setPump, can_setCan, pump_setPump, pump_setCan]
    split
    · exact Nat.zero_le _
    · exact h q
  codes h q r := by
    rw [can_setPump, can_setPump, can_setCan, can_setCan]
    split <;> split
    · intros; simp_all
    · exact fun hc hr e => absurd e.symm (code hc r hr)
    · exact fun hq hc e => absurd e (code hc q hq)
    · exact h q r
  heel h q := by
    rw [can_setPump, can_setCan]
    split
    · exact heel
    · exact h q

theorem keepsStock_store (s : State) (p : Pos) : KeepsStock s (s.storeCan p) := keepsStock_of_eq rfl rfl rfl

theorem keepsStock_install {s : State} {b : Bytes} (on : s.power = .on) (h : installRefusal b s = none) :
    KeepsStock s (installEffect b s).1 := by
  simp only [installRefusal, firstRefusal_cons_eq_none, refuseIf_eq_none, rangeRefusal_eq_none, List.forall_mem_append,
    declaredChecks_iff, List.forall_mem_cons, decide_eq_true_eq] at h
  obtain ⟨-, -, -, -, -, -, fresh, ⟨declared, heel, -⟩, -⟩ := h
  have other := (Submit.posOfCode_isNone s (installRecord b).code).1 (by simpa using fresh)
  refine ((keepsStock_put on _ ?_ ?_ ?_).trans (keepsStock_store _ _)).trans
    (keepsStock_of_works on (works_examineLow _ _) (kepts_examineLow _ _))
  · refine ⟨⟨rfl, rfl, rfl, nofun, Nat.min_le_right _ _, Nat.zero_lt_succ _, fun _ => ?_⟩, rfl⟩
    exact declared_of_eq (c := installRecord b) rfl declared
  · exact fun _ q hq e => other ⟨q, hq, e⟩
  · exact fun _ => le_min heel declared.heel.2.le

theorem vacant_sound : Canister.vacant.Sound :=
  ⟨⟨rfl, rfl, rfl, nofun, Nat.le_refl _, by decide, nofun⟩, rfl⟩

theorem keepsStock_remove {s : State} (b : Bytes) (on : s.power = .on) : KeepsStock s (removeEffect b s).1 :=
  (keepsStock_put on _ vacant_sound nofun nofun).trans (keepsStock_store _ _)

/-! ### CALIBRATE, REFILL-END and ADJUST -/

/-- Work of the blocks that rewrites one position under its code and not below its heel. -/
theorem keepsStock_of_set {s t : State} (on : s.power = .on) (w : Works s t) {p : Pos} {r : CanRecord}
    (k : kepts t = (kepts s).set p r) (code : r.code = (s.can p).kept.code)
    (heel : s.HeelOk → r.installed = true → r.heel ≤ r.level) : KeepsStock s t :=
  ⟨cansOk_of_works on w, pumpsOk_of_works w, codesOk_of_set w k code, fun h => heelOk_of_set k (heel h) h⟩

theorem keepsStock_calibrate {s : State} {b : Bytes} (on : s.power = .on) (h : calibrateRefusal b s = none) :
    KeepsStock s (calibrateEffect b s).1 := by
  simp only [calibrateRefusal, firstRefusal_cons_eq_none, refuseIf_eq_none, Bool.not_eq_false',
    Config.stepVolumeRange, Config.densityRange, Submit.range_has] at h
  obtain ⟨-, -, -, hq, hd, -⟩ := h
  refine keepsStock_of_set on (works_calibrateEffect b s hq hd) (p := bodyPos b)
    (r := (s.can (bodyPos b)).kept.calibrated (uN b 1 2) (uN b 3 2)) ?_ rfl fun h => h (bodyPos b)
  unfold calibrateEffect
  dsimp only
  split <;> simp [kepts_putKept]

theorem keepsStock_refillEnd {s : State} {b : Bytes} (on : s.power = .on) (h : refillEndRefusal b s = none) :
    KeepsStock s (refillEndEffect b s).1 := by
  simp only [refillEndRefusal, firstRefusal_cons_eq_none, refuseIf_eq_none, bne_eq_false_iff_eq] at h
  obtain ⟨-, -, -, locked, -⟩ := h
  refine keepsStock_of_set on (works_refillEndEffect b s (by rw [locked]; decide)) (p := bodyPos b)
    (r := (s.can (bodyPos b)).kept.refilled (uN b 1 4) (textAt b 5 8)) ?_ rfl
    fun h installed => (h (bodyPos b) installed).trans (Nat.le_add_right _ _)
  simp [refillEndEffect, kepts_putKept, Canister.toSettled, Canister.rearm]

theorem keepsStock_adjust {s : State} {b : Bytes} (on : s.power = .on) (h : adjustRefusal b s = none) :
    KeepsStock s (adjustEffect b s).1 := by
  simp only [adjustRefusal, firstRefusal_cons_eq_none, refuseIf_eq_none, Bool.or_eq_false_iff, decide_eq_false_iff_not,
    Nat.not_lt] at h
  obtain ⟨-, -, -, -, ⟨heel, capacity⟩, -⟩ := h
  refine keepsStock_of_set on (works_adjustEffect b s capacity) (p := bodyPos b)
    (r := (s.can (bodyPos b)).kept.adjusted (uN b 3 4)) ?_ rfl fun _ _ => heel
  unfold adjustEffect
  dsimp only
  rw [kepts_selectAfter]
  split
  · simp [kepts_putKept]
  · split
    · rw [kepts_walk]
      refine Eq.trans (kepts_setCan _ ?_) (kepts_putKept s _ _)
      rfl
    · simp [kepts_putKept]

/-! ### SUBMIT, SET-LINE and CLEAR-PORT -/

theorem keepsStock_submit {s : State} (p : Port) (b : Bytes) (on : s.power = .on) :
    KeepsStock s (submitEffect p b s).1 := by
  unfold submitEffect
  split
  · exact .refl s
  · next i _ =>
    have filled (v : Slot) : KeepsStock s (s.setSlot i v) := keepsStock_of_eq rfl rfl rfl
    have after {v : Slot} {t : State} (w : Works (s.setSlot i v) t) (k : kepts t = kepts s) : KeepsStock s t :=
      (filled v).trans (keepsStock_of_works on w k)
    dsimp only [State.admitJob]
    split
    · exact after ((((works_joinQueue _ _).trans (works_notifyJob _ _ _)).trans (works_wake _)).trans (works_select _))
        (by simp)
    · exact after ((((works_setWait _ _ _).trans (works_notifyWait _ _ _ _)).trans (works_notifyJob _ _ _)).trans
        (works_select _)) (by simp)

theorem keepsStock_setLine {s : State} (b : Bytes) (on : s.power = .on) : KeepsStock s (setLineEffect b s).1 := by
  unfold setLineEffect
  dsimp only
  split
  · refine KeepsStock.trans ?_ (keepsStock_of_works ?_ (works_select _) (kepts_select _))
    · exact keepsStock_of_eq rfl rfl rfl
    · exact on
  · exact keepsStock_of_eq rfl rfl rfl

theorem keepsStock_clear (p : Port) (s : State) : KeepsStock s (clearEffect p s).1 := by
  have frees (l : List (Fin 24)) (u : State) : KeepsStock u (l.foldl State.freeSlot u) := by
    induction l generalizing u with
    | nil => exact .refl u
    | cons i l ih =>
      have freed : KeepsStock u (u.freeSlot i) := keepsStock_of_eq rfl rfl rfl
      exact freed.trans (ih _)
  have cleared : KeepsStock s (s.setPort p (s.port p).clear) := keepsStock_of_eq rfl rfl rfl
  exact cleared.trans (frees _ _)

end Sys2Proof.StockLaws
end

section
/-! The start of the part (R42, R157, R158): which records it takes from the settings store, which it discards, and that
the next start discards none. -/

namespace Sys2Proof.Start

open Sys2Proof Sys2Proof.Machine

/-! ### Records in range -/

/-- A stored record of an installed canister is sound when its fields are in range (R21). -/
theorem sound_iff {r : CanRecord} (h : r.installed = true) : r.sound = true ↔ r.InRange := by
  have modulus : Config.countModulus = 65536 := rfl
  simp only [CanRecord.sound, h, if_true, Bool.and_eq_true, List.all_eq_true, StockLaws.declaredChecks_iff,
    CanRecord.textsFit, decide_eq_true_eq, Bool.not_eq_true', modulus]
  exact ⟨fun ⟨⟨⟨declared, heel⟩, level⟩, ⟨⟨⟨⟨a, b⟩, c⟩, d⟩, e⟩, f⟩ => ⟨declared, ⟨heel, level⟩, ⟨a, b, c⟩, ⟨d, e⟩, f⟩,
    fun ⟨declared, ⟨heel, level⟩, ⟨a, b, c⟩, ⟨d, e⟩, f⟩ => ⟨⟨⟨declared, heel⟩, level⟩, ⟨⟨⟨⟨a, b⟩, c⟩, d⟩, e⟩, f⟩⟩

/-- A sound record of no installed canister is the vacant one (log entry 29). -/
theorem sound_vacant {r : CanRecord} (h : r.installed = false) : r.sound = true ↔ r = CanRecord.vacant := by
  simp [CanRecord.sound, h]

theorem classSound_iff (c : TinClass) : c.sound = true ↔ c.InRange := by
  simp only [TinClass.sound, TinClass.InRange, Bool.and_eq_true, decide_eq_true_eq, Bool.not_eq_true', Config.fillRange,
    Config.headroomRange, Config.mixTimeRange, Submit.range_has, and_assoc]

theorem settingsSound_iff (v : Settings) : v.sound = true ↔ v.clamp = v := by
  rw [Settings.sound, beq_iff_eq, eq_comm]

/-! ### Reading the canister records from P0 upward -/

/-- One of the first `i` records read is of an installed canister with this code. -/
def Earlier (l : List (CanRecord × Bool)) (i : Nat) (code : Text) : Prop :=
  ∃ k < i, ∃ y, l[k]? = some y ∧ y.1.installed = true ∧ y.1.code = code

theorem earlier_zero (l : List (CanRecord × Bool)) (code : Text) : ¬ Earlier l 0 code := fun ⟨_, h, _⟩ => by omega

theorem earlier_succ (y : CanRecord × Bool) (l : List (CanRecord × Bool)) (i : Nat) (code : Text) :
    Earlier (y :: l) (i + 1) code ↔ y.1.installed = true ∧ y.1.code = code ∨ Earlier l i code := by
  constructor
  · rintro ⟨k, hk, z, hz, h⟩
    cases k with
    | zero => obtain rfl := Option.some.inj hz; exact .inl h
    | succ k => exact .inr ⟨k, by omega, z, hz, h⟩
  · rintro (h | ⟨k, hk, h⟩)
    · exact ⟨0, by omega, y, rfl, h⟩
    · exact ⟨k + 1, by omega, h⟩

/-- A stored copy is taken behind the codes taken so far (R157). -/
def Taken (x : Stored CanRecord) (code : Text → Prop) : Prop :=
  x.intact = true ∧ x.data.sound = true ∧ (x.data.installed = true → ¬ code x.data.code)

theorem canTaken_iff (codes : List Text) (x : Stored CanRecord) :
    x.canTaken codes = true ↔ Taken x fun code => code ∈ codes := by
  simp [Stored.canTaken, Taken, and_assoc, imp_iff_not_or]

theorem taken_congr {x : Stored CanRecord} {P Q : Text → Prop} (h : ∀ code, P code ↔ Q code) :
    Taken x P ↔ Taken x Q := by
  simp only [Taken, h]

/-- What is read at a place of the store's list. -/
theorem readCans_at (l : List (Option (Stored CanRecord))) (codes : List Text) (i : Nat) :
    (l[i]? = some none → (readCans codes l)[i]? = some (CanRecord.vacant, false)) ∧
    ∀ x, l[i]? = some (some x) →
      (Taken x (fun code => code ∈ codes ∨ Earlier (readCans codes l) i code) →
        (readCans codes l)[i]? = some (x.data, false)) ∧
      (¬ Taken x (fun code => code ∈ codes ∨ Earlier (readCans codes l) i code) →
        (readCans codes l)[i]? = some (CanRecord.vacant, true)) := by
  induction l generalizing codes i with
  | nil => exact ⟨nofun, nofun⟩
  | cons a l ih =>
    cases i with
    | zero =>
      refine ⟨fun h => ?_, fun x h => ?_⟩
      · obtain rfl := Option.some.inj h; rfl
      · obtain rfl := Option.some.inj h
        rw [taken_congr (Q := fun code => code ∈ codes) fun code => or_iff_left (earlier_zero _ code), ← canTaken_iff]
        refine ⟨fun taken => ?_, fun taken => ?_⟩
        · rw [readCans, if_pos taken]; rfl
        · rw [readCans, if_neg taken]; rfl
    | succ i =>
      -- the rest is read behind the codes that the head adds
      have rest : ∀ (y : CanRecord × Bool) (more : List Text), readCans codes (a :: l) = y :: readCans more l →
          (∀ code, code ∈ more ↔ code ∈ codes ∨ y.1.installed = true ∧ y.1.code = code) →
          (l[i]? = some none → (readCans codes (a :: l))[i + 1]? = some (CanRecord.vacant, false)) ∧
          ∀ x, l[i]? = some (some x) →
            (Taken x (fun code => code ∈ codes ∨ Earlier (readCans codes (a :: l)) (i + 1) code) →
              (readCans codes (a :: l))[i + 1]? = some (x.data, false)) ∧
            (¬ Taken x (fun code => code ∈ codes ∨ Earlier (readCans codes (a :: l)) (i + 1) code) →
              (readCans codes (a :: l))[i + 1]? = some (CanRecord.vacant, true)) := by
        intro y more read adds
        have same (code : Text) : code ∈ codes ∨ Earlier (y :: readCans more l) (i + 1) code ↔
            code ∈ more ∨ Earlier (readCans more l) i code := by rw [earlier_succ, adds, or_assoc]
        simp only [read, List.getElem?_cons_succ, same]
        exact ih more i
      cases a with
      | none => exact rest (CanRecord.vacant, false) codes rfl fun code => by simp [CanRecord.vacant]
      | some z =>
        by_cases taken : z.canTaken codes = true
        · refine rest (z.data, false) _ (by rw [readCans, if_pos taken]) fun code => ?_
          split
          · next inst => simp only [List.mem_cons, inst, true_and]; rw [or_comm, eq_comm]
          · next inst => simp [inst]
        · exact rest (CanRecord.vacant, true) codes (by rw [readCans, if_neg taken]) fun code => by
            simp [CanRecord.vacant]

/-! ### The record each position starts with -/

variable (st : Store)

/-- A position of lower number has started with an installed canister of this code. -/
def Bears (p : Pos) (code : Text) : Prop :=
  ∃ q, q < p ∧ (st.startCan q).1.installed = true ∧ (st.startCan q).1.code = code

theorem stored_at (p : Pos) : st.canisters.toArray.toList[p.val]? = some st.canisters[p] := by
  simp

theorem startCan_of_read {p : Pos} {y : CanRecord × Bool}
    (h : (readCans [] st.canisters.toArray.toList)[p.val]? = some y) : st.startCan p = y := by
  rw [Store.startCan, List.getD_eq_getElem?_getD, h, Option.getD_some]

theorem readCans_length (codes : List Text) (l : List (Option (Stored CanRecord))) :
    (readCans codes l).length = l.length := by
  induction l generalizing codes with
  | nil => rfl
  | cons a l ih =>
    cases a with
    | none => simp [readCans, ih]
    | some x => rw [readCans]; split <;> simp [ih]

theorem read_startCan (p : Pos) : (readCans [] st.canisters.toArray.toList)[p.val]? = some (st.startCan p) := by
  have long : p.val < (readCans [] st.canisters.toArray.toList).length := by rw [readCans_length]; simp
  rw [Store.startCan, List.getD_eq_getElem?_getD, List.getElem?_eq_getElem long, Option.getD_some]

theorem earlier_iff (p : Pos) (code : Text) :
    Earlier (readCans [] st.canisters.toArray.toList) p.val code ↔ Bears st p code := by
  constructor
  · rintro ⟨k, hk, y, hy, h⟩
    have read := startCan_of_read st (p := ⟨k, by omega⟩) hy
    exact ⟨⟨k, by omega⟩, hk, by rw [read]; exact h⟩
  · rintro ⟨q, hq, h⟩
    exact ⟨q.val, hq, _, read_startCan st q, h⟩

theorem startCan_none {p : Pos} (h : st.canisters[p] = none) : st.startCan p = (CanRecord.vacant, false) :=
  startCan_of_read st ((readCans_at _ [] p.val).1 (by rw [stored_at, h]))

theorem startCan_taken {p : Pos} {x : Stored CanRecord} (h : st.canisters[p] = some x) (taken : Taken x (Bears st p)) :
    st.startCan p = (x.data, false) := by
  refine startCan_of_read st (((readCans_at _ [] p.val).2 x (by rw [stored_at, h])).1 ?_)
  exact (taken_congr fun code => by rw [earlier_iff]; simp).2 taken

theorem startCan_discarded {p : Pos} {x : Stored CanRecord} (h : st.canisters[p] = some x)
    (discarded : ¬ Taken x (Bears st p)) : st.startCan p = (CanRecord.vacant, true) := by
  refine startCan_of_read st (((readCans_at _ [] p.val).2 x (by rw [stored_at, h])).2 fun taken => discarded ?_)
  exact (taken_congr fun code => by rw [earlier_iff]; simp).1 taken

/-- Everything a start can make of a position's stored copy. -/
theorem startCan_cases (p : Pos) :
    (st.canisters[p] = none ∧ st.startCan p = (CanRecord.vacant, false)) ∨
    ∃ x, st.canisters[p] = some x ∧
      ((Taken x (Bears st p) ∧ st.startCan p = (x.data, false)) ∨
        (¬ Taken x (Bears st p) ∧ st.startCan p = (CanRecord.vacant, true))) := by
  cases h : st.canisters[p] with
  | none => exact .inl ⟨rfl, startCan_none st h⟩
  | some x =>
    refine .inr ⟨x, rfl, ?_⟩
    by_cases taken : Taken x (Bears st p)
    · exact .inl ⟨taken, startCan_taken st h taken⟩
    · exact .inr ⟨taken, startCan_discarded st h taken⟩

/-- The record a position starts with, of an installed canister, is its intact copy with every field in range, under a
code that no lower position bears. -/
theorem startCan_installed {p : Pos} (h : (st.startCan p).1.installed = true) :
    st.canisters[p] = some ⟨(st.startCan p).1, true⟩ ∧ (st.startCan p).1.InRange ∧
      ¬ Bears st p (st.startCan p).1.code := by
  rcases startCan_cases st p with ⟨-, e⟩ | ⟨⟨data, intact⟩, stored, ⟨⟨rfl, sound, fresh⟩, e⟩ | ⟨-, e⟩⟩
  · rw [e] at h; cases h
  · rw [e] at h ⊢
    exact ⟨stored, (sound_iff h).1 sound, fresh h⟩
  · rw [e] at h; cases h

theorem startCan_vacant {p : Pos} (h : (st.startCan p).1.installed = false) : (st.startCan p).1 = CanRecord.vacant := by
  rcases startCan_cases st p with ⟨-, e⟩ | ⟨x, -, ⟨⟨-, sound, -⟩, e⟩ | ⟨-, e⟩⟩
  · rw [e]
  · rw [e] at h ⊢; exact (sound_vacant h).1 sound
  · rw [e]

theorem startCan_codes {p q : Pos} (hp : (st.startCan p).1.installed = true) (hq : (st.startCan q).1.installed = true)
    (code : (st.startCan p).1.code = (st.startCan q).1.code) : p = q := by
  obtain ⟨-, -, freshP⟩ := startCan_installed st hp
  obtain ⟨-, -, freshQ⟩ := startCan_installed st hq
  rcases lt_trichotomy p q with h | h | h
  · exact absurd ⟨p, h, hp, code⟩ freshQ
  · exact h
  · exact absurd ⟨q, h, hq, code.symm⟩ freshP

/-- A copy is discarded exactly if it is there and is not the intact copy of the record the position starts with. -/
theorem startCan_discard_iff (p : Pos) :
    (st.startCan p).2 = true ↔ st.canisters[p] ≠ none ∧ st.canisters[p] ≠ some ⟨(st.startCan p).1, true⟩ := by
  rcases startCan_cases st p with ⟨stored, e⟩ | ⟨⟨data, intact⟩, stored, ⟨⟨rfl, -, -⟩, e⟩ | ⟨discarded, e⟩⟩
  · simp [stored, e]
  · simp [stored, e]
  · rw [e, stored]
    refine iff_of_true rfl ⟨nofun, fun same => discarded ?_⟩
    obtain ⟨rfl, rfl⟩ := Stored.mk.inj (Option.some.inj same)
    exact ⟨rfl, rfl, nofun⟩

/-- The copy of a position after the start. -/
theorem afterStart_canister (p : Pos) :
    st.afterStart.canisters[p] = st.canisters[p].map fun _ => ⟨(st.startCan p).1, true⟩ := by
  have position : posVec[p] = p := by revert p; decide
  have after : st.afterStart.canisters[p] =
      if (st.startCan p).2 then some ⟨CanRecord.vacant, true⟩ else st.canisters[p] := by
    simp only [Store.afterStart, mapVec_getFin, position]
  rw [after]
  rcases startCan_cases st p with ⟨stored, e⟩ | ⟨⟨data, intact⟩, stored, ⟨⟨rfl, -, -⟩, e⟩ | ⟨-, e⟩⟩
  · simp [stored, e]
  · simp [stored, e]
  · simp [stored, e]

end Sys2Proof.Start
end

section
/-! The whole start (R153, R157, R158): classes, settings, the discard count, and the statement O4. -/

namespace Sys2Proof.Start

open Sys2Proof Sys2Proof.Machine

/-! ### Classes -/

/-- A stored class copy is taken behind the classes taken so far (R81, R157). -/
abbrev ClassTaken (l : List TinClass) (x : Stored TinClass) : Prop :=
  x.intact = true ∧ x.data.InRange ∧ ∀ c ∈ l, c.code ≠ x.data.code

theorem readClasses_cons (taken : List TinClass) (x : Stored TinClass) (l : List (Stored TinClass)) :
    readClasses taken (x :: l) =
      if ClassTaken taken x then readClasses (taken ++ [x.data]) l
      else ((readClasses taken l).1, (readClasses taken l).2 + 1) := by
  have check : (x.intact && x.data.sound && !(taken.any fun c => c.code == x.data.code)) = true ↔
      ClassTaken taken x := by
    simp [ClassTaken, classSound_iff, and_assoc]
  by_cases h : ClassTaken taken x
  · rw [readClasses, if_pos (check.2 h), if_pos h]
  · rw [readClasses, if_neg (fun y => h (check.1 y)), if_neg h]

/-- The classes taken, as a fold over the store's list. -/
theorem readClasses_fold (taken : List TinClass) (l : List (Stored TinClass)) :
    (readClasses taken l).1 = l.foldl (fun l x => if ClassTaken l x then l ++ [x.data] else l) taken := by
  induction l generalizing taken with
  | nil => rfl
  | cons x l ih =>
    rw [readClasses_cons, List.foldl_cons]
    split
    · exact ih _
    · exact ih _

/-- Every copy is taken or counted as discarded. -/
theorem readClasses_count (taken : List TinClass) (l : List (Stored TinClass)) :
    (readClasses taken l).1.length + (readClasses taken l).2 = taken.length + l.length := by
  induction l generalizing taken with
  | nil => rfl
  | cons x l ih =>
    rw [readClasses_cons]
    split
    · rw [ih]; simp only [List.length_append, List.length_cons, List.length_nil]; omega
    · have := ih taken; simp only [List.length_cons]; omega

/-- Classes in range with distinct codes. -/
def Classes (l : List TinClass) : Prop := (∀ c ∈ l, c.InRange) ∧ (l.map fun c => c.code).Nodup

theorem classes_snoc {l : List TinClass} {c : TinClass} :
    Classes (l ++ [c]) ↔ Classes l ∧ c.InRange ∧ ∀ d ∈ l, d.code ≠ c.code := by
  simp only [Classes, List.forall_mem_append, List.map_append, List.map_cons, List.map_nil,
    List.nodup_append, List.nodup_singleton, List.mem_map, forall_exists_index, and_imp, forall_apply_eq_imp_iff₂,
    List.mem_singleton, forall_eq, true_and, ne_eq]
  exact ⟨fun ⟨⟨a, b⟩, c, d⟩ => ⟨⟨a, c⟩, b, d⟩, fun ⟨⟨a, c⟩, b, d⟩ => ⟨⟨a, b⟩, c, d⟩⟩

theorem readClasses_classes {taken : List TinClass} (h : Classes taken) (l : List (Stored TinClass)) :
    Classes (readClasses taken l).1 := by
  induction l generalizing taken with
  | nil => exact h
  | cons x l ih =>
    rw [readClasses_cons]
    split
    · next new => exact ih (classes_snoc.2 ⟨h, new.2⟩)
    · exact ih h

/-- Copies of classes in range with distinct codes are all taken. -/
theorem readClasses_all (taken l : List TinClass) (h : Classes (taken ++ l)) :
    readClasses taken (l.map fun c => ⟨c, true⟩) = (taken ++ l, 0) := by
  induction l generalizing taken with
  | nil => simp [readClasses]
  | cons c l ih =>
    have split : taken ++ c :: l = (taken ++ [c]) ++ l := by simp
    rw [split] at h ⊢
    have front : Classes (taken ++ [c]) :=
      ⟨fun d hd => h.1 d (List.mem_append_left l hd),
        (List.map_append (f := fun c : TinClass => c.code) ▸ h.2).of_append_left⟩
    rw [List.map_cons, readClasses_cons, if_pos ⟨rfl, (classes_snoc.1 front).2⟩]
    exact ih _ h

/-! ### Settings -/

/-- The settings in force, and the stored copy after the start. -/
theorem readSettings_cases (x : Option (Stored Settings)) :
    (readSettings x).1 = (match x with
      | some x => if x.intact = true ∧ x.data.clamp = x.data then x.data else Settings.default
      | none => Settings.default) ∧
    ((readSettings x).2 = true ↔ x ≠ none ∧ x ≠ some ⟨(readSettings x).1, true⟩) ∧
    (if (readSettings x).2 then some ⟨Settings.default, true⟩ else x) = x.map fun _ => ⟨(readSettings x).1, true⟩ := by
  have default_sound : Settings.default.clamp = Settings.default := by decide
  rcases x with _ | ⟨v, intact⟩
  · exact ⟨rfl, by simp [readSettings], rfl⟩
  · by_cases h : intact = true ∧ v.clamp = v
    · obtain ⟨rfl, sound⟩ := h
      simp [readSettings, settingsSound_iff, sound]
    · have discarded : ¬ (intact && v.sound) = true := by simpa [settingsSound_iff] using h
      simp only [readSettings, if_neg h, discarded, Bool.false_eq_true, if_false, if_true]
      refine ⟨trivial, ?_, by simp⟩
      simp only [ne_eq, reduceCtorEq, not_false_eq_true, Option.some.injEq, Stored.mk.injEq, true_and, true_iff]
      rintro ⟨rfl, rfl⟩
      exact h ⟨rfl, default_sound⟩

/-! ### The count of discarded records, and the next start -/

/-- A record is discarded where a copy is there that is not the intact copy of what the part starts with. -/
theorem discards_eq (st : Store) {settings : Settings} (h : (readSettings st.settings).1 = settings) :
    st.discards =
      (allPos.filter fun p => st.canisters[p] ≠ none ∧ st.canisters[p] ≠ some ⟨(st.startCan p).1, true⟩).length +
        (st.classes.length - (readClasses [] st.classes).1.length) +
        (if st.settings ≠ none ∧ st.settings ≠ some ⟨settings, true⟩ then 1 else 0) := by
  subst h
  have positions : (allPos.filter fun p => (st.startCan p).2) =
      allPos.filter fun p => st.canisters[p] ≠ none ∧ st.canisters[p] ≠ some ⟨(st.startCan p).1, true⟩ :=
    List.filter_congr fun p _ => by rw [Bool.eq_iff_iff, startCan_discard_iff, decide_eq_true_iff]
  have classes : (readClasses [] st.classes).2 = st.classes.length - (readClasses [] st.classes).1.length := by
    have := readClasses_count [] st.classes; simp only [List.length_nil] at this; omega
  rw [Store.discards, positions, classes]
  congr 1
  exact if_congr (readSettings_cases st.settings).2.1 rfl rfl

/-- The next start takes the record that the start before it took. -/
theorem startCan_afterStart (st : Store) (p : Pos) : st.afterStart.startCan p = ((st.startCan p).1, false) := by
  induction p using WellFoundedLT.induction with
  | _ p ih =>
    have stored := afterStart_canister st p
    cases h : st.canisters[p] with
    | none =>
      rw [h] at stored
      rw [startCan_none st h, startCan_none _ stored]
    | some x =>
      rw [h, Option.map_some] at stored
      refine startCan_taken _ stored ⟨rfl, ?_, fun installed => ?_⟩
      · by_cases installed : (st.startCan p).1.installed = true
        · exact (sound_iff installed).2 (startCan_installed st installed).2.1
        · have vacant := startCan_vacant st (by simpa using installed)
          rw [vacant]; rfl
      · obtain ⟨-, -, fresh⟩ := startCan_installed st installed
        rintro ⟨q, hq, bears⟩
        rw [ih q hq] at bears
        exact fresh ⟨q, hq, bears⟩

/-- A store that a start has written holds no record that the next start discards. -/
theorem discards_afterStart (st : Store) : st.afterStart.discards = 0 := by
  have classes : (readClasses [] st.afterStart.classes).2 = 0 :=
    congrArg Prod.snd (readClasses_all [] _ (readClasses_classes (taken := []) ⟨by simp, List.nodup_nil⟩ st.classes))
  have settings : (readSettings st.afterStart.settings).2 = false := by
    have default_sound : Settings.default.sound = true := by decide
    have written : st.afterStart.settings =
        if (readSettings st.settings).2 then some ⟨Settings.default, true⟩ else st.settings := rfl
    rw [written]
    split
    · simp [readSettings, default_sound]
    · simp_all
  simp [Store.discards, startCan_afterStart, classes, settings]

/-! ### The start as a command -/

theorem exec_partStart (s : State) :
    exec .partStart s = .next (if s.active then s else State.start s.guardInput s.store s.pending) := rfl

theorem exec_partStart_inactive {s : State} (h : s.power ≠ .on) :
    exec .partStart s = .next (State.start s.guardInput s.store s.pending) := by
  rw [exec_partStart, if_neg (by simpa [State.active] using h)]

theorem startMode_eq (g : GuardState) : startMode g = if g = .closed then .run else .halted := by cases g <;> rfl

theorem startFlag_eq (g : GuardState) : startFlag g = if g = .closed then none else some .opened := by cases g <;> rfl

/-- The state after a start, by what is read from the store. -/
theorem start_eq (g : GuardState) (st : Store) (l : List Instr) {settings : Settings} {discards : Nat}
    (hsettings : (readSettings st.settings).1 = settings) (hdiscards : st.discards = discards) :
    State.start g st l = { State.reset with
      guardInput := g
      line := { mode := if g = .closed then .run else .halted, guard := if g = .closed then none else some .opened
                settings := settings }
      ports := Vector.replicate 4
        { rx := [], gap := none, hold := [], out := []
          notices := [.start discards (if g = .closed then .run else .halted)], lost := false, attention := true }
      canisters := (State.start g st l).canisters
      classes := (readClasses [] st.classes).1
      store := { canisters := st.afterStart.canisters
                 classes := (readClasses [] st.classes).1.map fun c => ⟨c, true⟩
                 settings := st.settings.map fun _ => ⟨settings, true⟩ }
      pending := l } := by
  subst hsettings hdiscards
  obtain ⟨-, -, copy⟩ := readSettings_cases st.settings
  rw [← startMode_eq, ← startFlag_eq, ← copy]
  rfl

theorem start_can (g : GuardState) (st : Store) (l : List Instr) (p : Pos) :
    (State.start g st l).can p = (st.startCan p).1.start := by
  have position : posVec[p] = p := by revert p; decide
  show (mapVec (fun p => (st.startCan p).1.start) posVec)[p] = _
  rw [mapVec_getFin, position]

theorem start_port (g : GuardState) (st : Store) (l : List Instr) (p : Port) :
    ((State.start g st l).port p).notices = [.start st.discards (startMode g)] := by cases p <;> rfl

/-- Settles O4: the record of each position is the one read from the store. -/
theorem partStartReadsTheStore : Obligations.PartStartReadsTheStore := by
  intro s
  refine ⟨fun on => ?_, fun off => ?_⟩
  · rw [exec_partStart, if_pos (by simp [State.active, on])]
  refine ⟨_, fun p => (s.store.startCan p).1, exec_partStart_inactive off, ?record, ?codes, ?taken, ?state, ?can,
    ?store, ?next⟩
  case record =>
    intro p
    by_cases installed : (s.store.startCan p).1.installed = true
    · obtain ⟨stored, fits, -⟩ := startCan_installed s.store installed
      exact .inr ⟨installed, stored, fits⟩
    · exact .inl (startCan_vacant s.store (by simpa using installed))
  case codes => exact fun p q hp hq => startCan_codes s.store hp hq
  case taken =>
    intro p r stored installed fits
    by_cases fresh : Bears s.store p r.code
    · exact .inr fresh
    · exact .inl (congrArg Prod.fst
        (startCan_taken s.store stored ⟨rfl, (sound_iff installed).2 fits, fun _ => fresh⟩))
  case state =>
    obtain ⟨inForce, -, -⟩ := readSettings_cases s.store.settings
    rw [← readClasses_fold]
    exact start_eq _ s.store _ inForce (discards_eq s.store inForce)
  case can => exact start_can _ _ _
  case store => exact afterStart_canister s.store
  case next =>
    refine ⟨_, exec_partStart_inactive (show Power.off ≠ .on by decide), fun p => ?_⟩
    rw [start_port, ← startMode_eq]
    exact congrArg (fun n => [Notice.start n (startMode s.guardInput)]) (discards_afterStart s.store)

end Sys2Proof.Start
end

section
/-! The laws of the canister table over each event, the start, RESET, loss of power and the passing of time, and
over every command but a burst report (O15). -/

namespace Sys2Proof.StockLaws

open Sys2Proof Sys2Proof.Machine Sys2Proof.Kept

/-! ### Events -/

theorem keepsStock_whenActive {s : State} {f : State → State} (h : s.power = .on → KeepsStock s (f s)) :
    KeepsStock s (s.whenActive f) := by
  unfold State.whenActive
  split
  · next on => exact h (by simpa [State.active] using on)
  · exact .refl s

theorem keepsStock_event {s : State} {f : State → State} (w : Works s (f s)) (k : kepts (f s) = kepts s) :
    KeepsStock s (s.whenActive f) := keepsStock_whenActive fun on => keepsStock_of_works on w k

theorem keepsStock_port {s : State} (p : Port) (v : State → PortState) :
    KeepsStock s (s.whenActive fun u => u.setPort p (v u)) :=
  keepsStock_whenActive fun _ => keepsStock_of_eq rfl rfl rfl

theorem keepsStock_answerSent (s : State) (p : Port) : KeepsStock s (s.whenActive fun u => u.answerSent p) :=
  keepsStock_whenActive fun _ => by
    unfold State.answerSent
    split
    · exact .refl s
    · exact keepsStock_of_eq rfl rfl rfl

/-- The guard input moves, and what the part does at it follows. -/
theorem keepsStock_guard {s : State} (g : GuardState) {f : State → State} (w : ∀ u, Works u (f u))
    (k : ∀ u, kepts (f u) = kepts u) : KeepsStock s (({ s with guardInput := g }).whenActive f) :=
  KeepsStock.trans (b := { s with guardInput := g }) (keepsStock_of_eq rfl rfl rfl) (keepsStock_event (w _) (k _))

/-! ### RESET, loss of power, the start -/

theorem keepsStock_assertReset {s : State} (writing : Option StoreKey) : KeepsStock s (s.assertReset writing) := by
  have can (p : Pos) : (s.assertReset writing).can p = { s.can p with stirrer := false } := by
    show (mapVec (fun c : Canister => { c with stirrer := false }) s.canisters)[p] = _
    rw [mapVec_getFin]; rfl
  refine ⟨fun h p => ?_, fun h p => ?_, codesOk_of_same (fun p => by rw [can]) (fun p => by rw [can]), fun h p => ?_⟩
  · obtain ⟨⟨installed, settle, keep, demand, level, count, declared⟩, -⟩ := h p
    rw [can, if_neg (show (s.assertReset writing).power ≠ .on by rintro ⟨⟩)]
    exact ⟨⟨installed, settle, keep, demand, level, count, declared⟩, rfl⟩
  · rw [can]; exact h p
  · rw [can]; exact h p

/-- A canister at start is lawful, at or above its heel, its stirrer off. -/
theorem start_sound (st : Store) (p : Pos) :
    (st.startCan p).1.start.Sound ∧
      ((st.startCan p).1.installed = true → (st.startCan p).1.heel ≤ (st.startCan p).1.level) := by
  by_cases h : (st.startCan p).1.installed = true
  · obtain ⟨-, ⟨declared, ⟨heel, level⟩, -, -, count⟩, -⟩ := Start.startCan_installed st h
    have settled : (st.startCan p).1.start.state = .settled := if_pos h
    refine ⟨⟨⟨?_, ?_, ?_, nofun, level, count, fun _ => declared⟩, ?_⟩, fun _ => heel⟩
    · rw [settled]; exact h
    · rw [settled]; rfl
    · rw [settled]; rfl
    · rw [Canister.StirrerOk, settled]; rfl
  · rw [Start.startCan_vacant st (by simpa using h)]
    exact ⟨vacant_sound, nofun⟩

theorem keepsStock_start (s : State) (g : GuardState) (st : Store) (l : List Instr) :
    KeepsStock s (State.start g st l) := by
  refine ⟨fun _ p => ?_, fun _ p => ?_, fun _ p q => ?_, fun _ p => ?_⟩
  · rw [Start.start_can, if_pos (show (State.start g st l).power = .on from rfl)]
    exact (start_sound st p).1
  · have empty : (State.start g st l).pump p = Pump.start := by
      show (Vector.replicate 16 Pump.start)[p] = _
      simp
    rw [empty]; exact Nat.zero_le _
  · rw [Start.start_can, Start.start_can]
    exact Start.startCan_codes st
  · rw [Start.start_can]
    exact (start_sound st p).2

theorem keepsStock_dark (s : State) (g : GuardState) (st : Store) (l : List Instr) :
    KeepsStock s (State.dark g st l) := by
  have can (p : Pos) : (State.dark g st l).can p = Canister.vacant := by
    show (Vector.replicate 16 Canister.vacant)[p] = _
    simp
  have empty (p : Pos) : (State.dark g st l).pump p = Pump.start := by
    show (Vector.replicate 16 Pump.start)[p] = _
    simp
  refine ⟨fun _ p => ?_, fun _ p => ?_, fun _ p q h => ?_, fun _ p h => ?_⟩
  · rw [can, if_neg (show (State.dark g st l).power ≠ .on by rintro ⟨⟩)]
    exact ⟨vacant_sound.1, rfl⟩
  · rw [empty]; exact Nat.zero_le _
  · rw [can] at h; cases h
  · rw [can] at h; cases h

/-! ### One millisecond -/

theorem keepsStock_tick (s : State) : KeepsStock s s.tick := by
  refine keepsStock_whenActive fun on => ?_
  have can (t : State) (h : t.canisters = mapVec (fun c : Canister => { c with
      settleTimer := tickTimer c.settleTimer, keepTimer := tickTimer c.keepTimer }) s.canisters) (p : Pos) :
      t.can p = { s.can p with
        settleTimer := tickTimer (s.can p).settleTimer, keepTimer := tickTimer (s.can p).keepTimer } := by
    rw [State.can, h, mapVec_getFin]; rfl
  refine ⟨fun h p => ?_, fun h p => ?_, codesOk_of_same (fun p => by rw [can _ rfl]) (fun p => by rw [can _ rfl]),
    fun h p => ?_⟩
  · obtain ⟨⟨installed, settle, keep, demand, level, count, declared⟩, stirrer⟩ := h p
    rw [can _ rfl]
    exact ⟨⟨installed, by simpa [tickTimer] using settle, by simpa [tickTimer] using keep, demand, level, count,
      declared⟩, stirrer⟩
  · rw [can _ rfl]; exact h p
  · rw [can _ rfl]; exact h p

/-! ### Every command but a burst report -/

/-- Every command that reports no burst keeps the laws of the canister table and the piston charges. -/
theorem keepsStock_exec {i : Instr} {s t : State} (burst : ∀ p n, i ≠ .burstDone p n)
    (halt : ∀ p n, i ≠ .haltReport p n) (h : exec i s = .next t) : KeepsStock s t := by
  cases i with
  | submit p tag body => cases h; exact keepsStock_take fun u on _ => keepsStock_submit p body on
  | cancel p tag body =>
    cases h
    exact keepsStock_take_works (works_cancelEffect body) fun u => kepts_cancelEffect u body
  | resume p tag body =>
    cases h
    exact keepsStock_take_works (works_resumeEffect body) fun u => kepts_resumeEffect u body
  | retire p tag body => cases h; exact keepsStock_take fun _ _ _ => keepsStock_of_eq rfl rfl rfl
  | readJob p tag body => cases h; exact keepsStock_take_read
  | readTin p tag body => cases h; exact keepsStock_take_read
  | install p tag body => cases h; exact keepsStock_take fun _ => keepsStock_install
  | remove p tag body => cases h; exact keepsStock_take fun _ on _ => keepsStock_remove body on
  | calibrate p tag body => cases h; exact keepsStock_take fun _ => keepsStock_calibrate
  | refillBegin p tag body =>
    cases h
    refine keepsStock_take fun u on passes => keepsStock_of_works on ?_ (kepts_refillBeginEffect u body)
    simp only [refillBeginRefusal, firstRefusal_cons_eq_none, refuseIf_eq_none, Bool.or_eq_false_iff,
      beq_eq_false_iff_ne] at passes
    obtain ⟨-, -, ⟨installed, -⟩, -⟩ := passes
    exact works_refillBeginEffect body u installed
  | refillEnd p tag body => cases h; exact keepsStock_take fun _ => keepsStock_refillEnd
  | adjust p tag body => cases h; exact keepsStock_take fun _ => keepsStock_adjust
  | readCanister p tag body => cases h; exact keepsStock_take_read
  | setTinClassSet p tag body =>
    cases h
    split
    · exact .refl s
    · exact keepsStock_take fun _ _ _ => keepsStock_of_eq rfl rfl rfl
  | setTinClassDelete p tag body =>
    cases h
    split
    · exact keepsStock_take fun _ _ _ => keepsStock_of_eq rfl rfl rfl
    · exact .refl s
  | setLine p tag body => cases h; exact keepsStock_take fun _ on _ => keepsStock_setLine body on
  | lineModePark p tag body =>
    cases h
    split
    · exact .refl s
    · exact keepsStock_take_works works_parkEffect kepts_parkEffect
  | lineModeWake p tag body =>
    cases h
    split
    · exact keepsStock_take_works works_wakeEffect kepts_wakeEffect
    · exact .refl s
  | resumeLine p tag body => cases h; exact keepsStock_take_works works_resumeLineEffect kepts_resumeLineEffect
  | mixerReturn p tag body =>
    cases h; exact keepsStock_take_works (works_mixerReturnEffect body) fun u => kepts_mixerReturnEffect u body
  | find p tag body => cases h; exact keepsStock_take_read
  | status p tag body => cases h; exact keepsStock_take_read
  | fetchNotice p tag body => cases h; exact keepsStock_take fun _ _ _ => keepsStock_of_eq rfl rfl rfl
  | clearPort p tag body => cases h; exact keepsStock_take fun u _ _ => keepsStock_clear p u
  | frameReceived p kind tag body crc =>
    simp only [exec, execFrameReceived] at h
    split at h
    · cases h; exact keepsStock_port p _
    · cases h
  | frameGapTimeout p => cases h; exact keepsStock_port p _
  | answerSent p => cases h; exact keepsStock_answerSent s p
  | burstDone p n => exact absurd rfl (burst p n)
  | chargeDone p => cases h; exact keepsStock_event (works_chargeDone s p) (kepts_chargeDone s p)
  | recircDone p => cases h; exact keepsStock_event (works_recircDone s p) (kepts_recircDone s p)
  | haltReport p n => exact absurd rfl (halt p n)
  | reading mass stable overload =>
    simp only [exec, execReading] at h
    split at h
    · cases h; exact keepsStock_event (works_reading s _ _ _) (kepts_reading s _ _ _)
    · cases h
  | scan cls base =>
    simp only [exec, execScan] at h
    split at h
    · cases h; exact keepsStock_event (works_scan s _ _) (kepts_scan s _ _)
    · cases h
  | loaded m => cases h; exact keepsStock_event (works_loaded s m) (kepts_loaded s m)
  | clampFault m => cases h; exact keepsStock_event (works_clampFault s m) (kepts_clampFault s m)
  | lidded => cases h; exact keepsStock_event (works_lidded s) (kepts_lidded s)
  | tinTaken x => cases h; exact keepsStock_event (works_tinTaken s x) (kepts_tinTaken s x)
  | guardOpened => cases h; exact keepsStock_guard .opened works_guardOpened kepts_guardOpened
  | guardClosed => cases h; exact keepsStock_guard .closed works_guardClosed kepts_guardClosed
  | resetAssert writing => cases h; exact keepsStock_whenActive fun _ => keepsStock_assertReset writing
  | partStart =>
    cases h
    split
    · exact .refl s
    · exact keepsStock_start _ _ _ _
  | settleTimerExpiry p => cases h; exact keepsStock_event (works_settleExpiry s p) (kepts_settleExpiry s p)
  | keepStirTimerExpiry p => cases h; exact keepsStock_event (works_keepStirExpiry s p) (kepts_keepStirExpiry s p)
  | callTimerExpiry => cases h; exact keepsStock_event (works_callExpiry s) (kepts_callExpiry s)
  | dwellTimerExpiry d => cases h; exact keepsStock_event (works_dwellExpiry s d) (kepts_dwellExpiry s d)
  | dripTimerExpiry => cases h; exact keepsStock_event (works_dripExpiry s) (kepts_dripExpiry s)
  | scaleSettleTimeout => cases h; exact keepsStock_event (works_scaleTimeout s) (kepts_scaleTimeout s)
  | mixTimerExpiry m => cases h; exact keepsStock_event (works_mixExpiry s m) (kepts_mixExpiry s m)
  | powerLoss writing =>
    cases h
    split
    · exact .refl s
    · exact keepsStock_dark _ _ _ _
  | frameStartByte p => cases h; exact keepsStock_port p _
  | lengthByteAbove240 p len =>
    simp only [exec, execLengthByteAbove240] at h
    split at h
    · cases h; exact keepsStock_port p _
    · cases h

end Sys2Proof.StockLaws
end

section
/-! The burst reports (R22, R30, R43, R45): the steps that a report debits are reserved, so no level falls below its
heel; and the statement O15. -/

namespace Sys2Proof.StockLaws

open Sys2Proof Sys2Proof.Machine Sys2Proof.Kept

/-! ### The steps of a burst are reserved -/

/-- The volume of each burst in progress stands above the heel of its canister. -/
def BurstsFit (s : State) : Prop :=
  ∀ d, (s.chan d).state = .burst →
    (s.chan d).burst.getD 0 * (s.can (s.chan d).pos).kept.q ≤
      (s.can (s.chan d).pos).kept.level - (s.can (s.chan d).pos).kept.heel

theorem cumSteps_mono {k n : Nat} (h : k ≤ n) (e m : Nat) : cumSteps k e m ≤ cumSteps n e m := by
  unfold cumSteps
  gcongr

/-- The steps that a component holds are among those reserved on its position. -/
theorem reserved_le_reservedSteps {s : State} {h : Handle} {j : Job} (hj : s.job? h = some j) {i : Nat} {c : Component}
    (hc : j.comps[i]? = some c) : c.reserved ≤ s.reservedSteps c.pos := by
  have slot := job?_eq_some hj
  have listed : (h, j) ∈ s.jobs := by
    have all : ∀ i, i ∈ allSlots := by decide
    exact List.mem_filterMap.2 ⟨h.slot, all _, by rw [slot]; rfl⟩
  have own : c.reserved ≤ j.reservedOn c.pos := by
    refine (List.single_le_sum (by simp) _ (List.mem_map.2 ⟨c, List.mem_of_getElem? hc, rfl⟩)).trans' ?_
    rw [if_pos rfl]
  exact own.trans (List.single_le_sum (by simp) _ (List.mem_map.2 ⟨(h, j), listed, rfl⟩))

/-- The tin and the job that a burst in progress serves. -/
theorem burst_serves {s : State} (h : s.Lawful) {d : ChanId} (burst : (s.chan d).state = .burst) :
    s.station = .dispensing ∧ ∃ t j, s.tin = some t ∧ s.job? t.handle = some j := by
  have station : s.station = .dispensing := by
    by_contra other
    have := h.floor.chans.free other d
    rw [burst] at this; cases this
  have present : s.tin.isSome = true := by rw [h.floor.station.tin, station]; rfl
  obtain ⟨t, tin⟩ := Option.isSome_iff_exists.1 present
  obtain ⟨j, job, -⟩ := h.jobs.tins (1, t) (by simp [State.tins, tin])
  exact ⟨station, t, j, tin, job⟩

/-- An undecided attempt holds what it has not yet dispensed (R43). -/
theorem reserved_of_attempt {s : State} (h : s.Lawful) {t : TinCtx} {j : Job} (tin : s.tin = some t)
    (job : s.job? t.handle = some j) (undecided : s.undecided t = true) {i : Nat} {c : Component}
    (hc : j.comps[i]? = some c) : t.steps.getD i 0 ≤ c.reserved + t.dispensed.getD i 0 := by
  have slot := job?_eq_some job
  have inSlot : (s.slot t.handle.slot).job = some j := by rw [slot]
  have handle : (⟨t.handle.slot, (s.slot t.handle.slot).gen⟩ : Handle) = t.handle := by rw [slot]
  have attempts : s.attempts t.handle = true := by simp [State.attempts, tin, undecided]
  have claim : s.ClaimOk t.handle j := handle ▸ h.stock.claims _ j inSlot
  have counters : s.JobOk t.handle j := handle ▸ h.jobs.each _ j inSlot
  have active : j.state = .active := counters.attempt attempts
  have notPending : j.pendingRe = none := by
    cases pending : j.pendingRe with
    | none => rfl
    | some l =>
      obtain ⟨-, waits | ⟨waits, -⟩⟩ := claim.sizes l pending <;> rw [active] at waits <;> cases waits
  have held := claim.held (by rw [active]; decide) notPending i c hc
  have spent : s.spent t.handle i = t.dispensed.getD i 0 := by simp [State.spent, tin, attempts]
  have cum : c.cum = j.cumAt c j.counted := (h.cum _ j inSlot).1 c (List.mem_of_getElem? hc)
  have next : t.steps.getD i 0 = j.cumAt c (j.counted + 1) - j.cumAt c j.counted := by
    rw [(h.stock.tin t j tin job).next undecided, List.getD_eq_getElem?_getD, Formula.nextSteps_getElem?, hc]; rfl
  have left : j.counted + 1 ≤ j.n := by
    obtain ⟨started, few⟩ := counters.started (by rw [active]; decide)
    rw [attempts, if_pos rfl] at started
    omega
  have need : j.cumAt c (j.counted + 1) ≤ j.need c := cumSteps_mono left _ _
  rw [spent] at held
  omega

/-- A component of the tin holds at least the steps of its burst in progress (R43, R55). -/
theorem burst_le_reserved {s : State} (h : s.Lawful) {d : ChanId} (burst : (s.chan d).state = .burst) {t : TinCtx}
    {j : Job} (tin : s.tin = some t) (job : s.job? t.handle = some j) {c : Component}
    (hc : j.comps[(s.chan d).comp]? = some c) : (s.chan d).burst.getD 0 ≤ c.reserved := by
  have busy : (s.chan d).state ≠ .free := by rw [burst]; decide
  have chan := h.stock.chans t j d tin job busy
  obtain ⟨station, -⟩ := burst_serves h burst
  cases route : t.route with
  | normal =>
    have undecided : s.undecided t = true := by simp [State.undecided, route, station]
    have covered := reserved_of_attempt h tin job undecided hc
    have remaining := chan.remaining
    have size : (s.chan d).burst.getD 0 ≤ (s.chan d).remaining := by
      cases k : (s.chan d).burst with
      | none => exact Nat.zero_le _
      | some k => exact (chan.burst _ ‹_›).1
    omega
  | reject =>
    have cancelling : j.state = .cancelling := by
      rcases h.jobs.rejected t j tin route job with cancelling | ⟨handoff, -⟩
      · exact cancelling
      · rw [station] at handoff; cases handoff
    have slot := job?_eq_some job
    have handle : (⟨t.handle.slot, (s.slot t.handle.slot).gen⟩ : Handle) = t.handle := by rw [slot]
    have claim : s.ClaimOk t.handle j := handle ▸ h.stock.claims _ j (by rw [slot])
    have kept := claim.kept cancelling _ c hc
    have here : s.atStation t.handle = true := by simp [State.atStation, tin]
    obtain ⟨e, found⟩ : ∃ e, s.findChan (fun x => x.state == .burst && x.comp == (s.chan d).comp) = some e := by
      have all : ∀ e, e ∈ allChans := by decide
      exact Option.isSome_iff_exists.1 (List.find?_isSome.2 ⟨d, all d, by simp [burst]⟩)
    have same : e = d := by
      have is := List.find?_some found
      simp only [Bool.and_eq_true, beq_iff_eq] at is
      exact chan.alone e (by rw [is.1]; decide) is.2
    rw [kept, State.burstOf, if_pos here, found, same]

/-- Under the reservation law each burst in progress fits above the heel (R45). -/
theorem burstsFit_of_lawful {s : State} (h : s.Lawful) : BurstsFit s := by
  intro d burst
  obtain ⟨-, t, j, tin, job⟩ := burst_serves h burst
  have busy : (s.chan d).state ≠ .free := by rw [burst]; decide
  obtain ⟨c, hc, pos⟩ := (h.stock.chans t j d tin job busy).comp
  calc (s.chan d).burst.getD 0 * (s.can (s.chan d).pos).kept.q
      ≤ s.reservedSteps (s.chan d).pos * (s.can (s.chan d).pos).kept.q :=
        Nat.mul_le_mul_right _ ((burst_le_reserved h burst tin job hc).trans (pos ▸ reserved_le_reservedSteps job hc))
    _ ≤ _ := h.stock.reserve _

/-! ### What a burst report does to the laws -/

/-- The report of a burst debits at most the burst. -/
theorem takeBurst_cases (s : State) (p : Pos) (n : Nat) :
    kepts (s.takeBurst p n) = kepts s ∨
    ∃ d k, (s.chan d).state = .burst ∧ k ≤ (s.chan d).burst.getD 0 ∧ kepts (s.takeBurst p n) =
      (kepts s).set (s.chan d).pos (debited (s.can (s.chan d).pos).kept k) := by
  unfold State.takeBurst
  split
  · next d found =>
    have burst := List.find?_some found
    simp only [Bool.and_eq_true, beq_iff_eq] at burst
    by_cases hk : min n ((s.chan d).burst.getD 0) = 0
    · rw [hk]; exact .inl (kepts_burstReport_zero s d)
    · exact .inr ⟨d, _, burst.1, Nat.min_le_right _ _, kepts_burstReport s d hk⟩
  · exact .inl (kepts_pumpEnds s p _)

/-- What a report of steps keeps: the canister laws, the piston charges and the codes; and the heels, where the bursts
fit. -/
theorem keeps_of_takeBurst {s t : State} (on : s.power = .on) (p : Pos) (n : Nat) (w : Works s t)
    (k : kepts t = kepts (s.takeBurst p n)) (cans : s.CansOk) (pumps : s.PumpsOk) :
    t.CansOk ∧ t.PumpsOk ∧ (s.CodesOk → t.CodesOk) ∧ (BurstsFit s → s.HeelOk → t.HeelOk) := by
  refine ⟨cansOk_of_works on w cans, pumpsOk_of_works w pumps, ?_⟩
  rcases takeBurst_cases s p n with same | ⟨d, m, burst, few, debit⟩
  · have kept := keepsStock_of_works on w (k.trans same)
    exact ⟨kept.codes, fun _ => kept.heel⟩
  · refine ⟨codesOk_of_set w (k.trans debit) rfl, fun fits heel => ?_⟩
    refine heelOk_of_set (k.trans debit) (fun installed => ?_) heel
    have above := heel _ installed
    have fit := (Nat.mul_le_mul_right (s.can (s.chan d).pos).kept.q few).trans (fits d burst)
    simp only [debited] at above ⊢
    omega

/-- A report that a part in any state of its pump takes or ignores. -/
theorem keeps_of_report {s : State} (p : Pos) (n : Nat) {f : State → State} (w : ∀ u, Works u (f u))
    (k : kepts (f s) = kepts (s.takeBurst p n) ∨ kepts (f s) = kepts s) (cans : s.CansOk) (pumps : s.PumpsOk) :
    (s.whenActive f).CansOk ∧ (s.whenActive f).PumpsOk ∧ (s.CodesOk → (s.whenActive f).CodesOk) ∧
      (BurstsFit s → s.HeelOk → (s.whenActive f).HeelOk) := by
  unfold State.whenActive
  split
  · next on =>
    have on : s.power = .on := by simpa [State.active] using on
    rcases k with k | k
    · exact keeps_of_takeBurst on p n (w s) k cans pumps
    · have kept := keepsStock_of_works on (w s) k
      exact ⟨kept.cans cans, kept.pumps pumps, kept.codes, fun _ => kept.heel⟩
  · exact ⟨cans, pumps, id, fun _ => id⟩

theorem kepts_burstDone (s : State) (p : Pos) (n : Nat) :
    kepts (s.burstDone p n) = kepts (s.takeBurst p n) ∨ kepts (s.burstDone p n) = kepts s := by
  unfold State.burstDone
  split
  · exact .inl (kepts_selectAfter _ _)
  all_goals exact .inr rfl

theorem kepts_haltReport (s : State) (p : Pos) (n : Nat) :
    kepts (s.haltReport p n) = kepts (s.takeBurst p n) ∨ kepts (s.haltReport p n) = kepts s := by
  unfold State.haltReport
  split
  · exact .inl (kepts_selectAfter _ _)
  · right; simp
  · right; simp
  · exact .inr rfl

/-! ### The step -/

/-- Every command keeps the canister laws, the piston charges and the distinct codes; and the heels, where the bursts in
progress fit above them. -/
theorem exec_keeps {i : Instr} {s t : State} (h : exec i s = .next t) (cans : s.CansOk) (pumps : s.PumpsOk) :
    t.CansOk ∧ t.PumpsOk ∧ (s.CodesOk → t.CodesOk) ∧ (BurstsFit s → s.HeelOk → t.HeelOk) := by
  by_cases burst : ∃ p n, i = .burstDone p n
  · obtain ⟨p, n, rfl⟩ := burst
    cases h
    exact keeps_of_report p n (fun u => works_burstDone u p n) (kepts_burstDone s p n) cans pumps
  by_cases halt : ∃ p n, i = .haltReport p n
  · obtain ⟨p, n, rfl⟩ := halt
    cases h
    exact keeps_of_report p n (fun u => works_haltReport u p n) (kepts_haltReport s p n) cans pumps
  have kept := keepsStock_exec (fun p n e => burst ⟨p, n, e⟩) (fun p n e => halt ⟨p, n, e⟩) h
  exact ⟨kept.cans cans, kept.pumps pumps, kept.codes, fun _ => kept.heel⟩

/-- Settles O15: a step is a millisecond or a command; the debit of a burst report is covered by the reservation law. -/
theorem stepsKeepCanistersAndPumpsLawful : Obligations.StepsKeepCanistersAndPumpsLawful := by
  intro s t cans pumps h
  unfold step at h
  split at h
  · cases h
    have kept := keepsStock_tick s
    exact ⟨kept.cans cans, kept.pumps pumps, kept.codes, fun lawful => kept.heel lawful.stock.heel⟩
  · obtain ⟨cansAfter, pumpsAfter, codes, heel⟩ := exec_keeps h cans pumps
    refine ⟨cansAfter, pumpsAfter, codes, fun lawful => ?_⟩
    have fits := burstsFit_of_lawful lawful
    exact heel fits lawful.stock.heel

end Sys2Proof.StockLaws
end

section
/-! What walks and selections leave (O47), requests for recirculation (R25, O50), and the timers of the canister table
and the head (R27, R28, R109, R111, O57). -/

namespace Sys2Proof.Recirculation

open Sys2Proof Sys2Proof.Machine

/-- Settles O47. -/
theorem walksAndSelectionsLeaveTheRest : Obligations.WalksAndSelectionsLeaveTheRest := fun s p =>
  ⟨serves_walk s p, serves_select s, serves_examinePark s, moves_examineTransfer s, moves_examineLidder s⟩

/-! ### Recirculation -/

variable {s : State} {p : Pos}

/-- The state once RECIRC has been sent for a position (R25). -/
def served (s : State) (p : Pos) : State :=
  { (s.setCan p { s.can p with
      state := .recirc, demand := false, stirrer := true, settleTimer := none, keepTimer := none }).setPump p
      { s.pump p with state := .recirc } with
    sent := s.sent ++ [Sent.recirc p (s.can p).kept.recircTime] }

theorem examineRecirc_serves (demand : (s.can p).demand = true) (settled : (s.can p).state = .settled)
    (idle : (s.pump p).state = .idle) (mode : s.line.mode ≠ .halted) : s.examineRecirc p = served s p := by
  have running : s.halted = false := by simpa [State.halted] using mode
  unfold State.examineRecirc
  simp only [demand, settled, idle, running]
  rfl

/-- A demand that cannot be served, or no demand. -/
theorem examineRecirc_leaves (h : (s.can p).demand = false ∨ (s.can p).state ≠ .settled ∨ (s.pump p).state ≠ .idle ∨
    s.line.mode = .halted) : s.examineRecirc p = s := by
  refine if_neg fun serves => ?_
  simp only [Bool.and_eq_true, beq_iff_eq, Bool.not_eq_true', State.halted, beq_eq_false_iff_ne] at serves
  obtain ⟨⟨⟨demand, settled⟩, idle⟩, mode⟩ := serves
  rcases h with h | h | h | h
  · rw [demand] at h; cases h
  · exact h settled
  · exact h idle
  · exact mode h

theorem setCan_setCan (c d : Canister) : (s.setCan p c).setCan p d = s.setCan p d := by simp [State.setCan]

theorem askRecirc_settled (h : (s.can p).state = .settled) :
    s.askRecirc p = (s.setCan p { s.can p with demand := true }).examineRecirc p := by
  simp [State.askRecirc, h]

/-- Settles O50: a request sets the demand, and its examination serves it or leaves it. -/
theorem recirculationIsAskedOfSettledCanisters : Obligations.RecirculationIsAskedOfSettledCanisters := by
  intro s p
  refine ⟨fun other => ?_, fun settled => ⟨fun busy => ?_, fun idle mode => ?_⟩, examineRecirc_serves,
    examineRecirc_leaves, fun l => ?_, fun _ => rfl, fun _ _ _ _ => rfl⟩
  · simp [State.askRecirc, other]
  · rw [askRecirc_settled settled]
    exact examineRecirc_leaves (.inr (.inr busy))
  · rw [askRecirc_settled settled]
    have demand : ((s.setCan p { s.can p with demand := true }).can p).demand = true := by simp
    rw [examineRecirc_serves demand (by simpa using settled) idle mode]
    simp only [served, can_setCan_same, setCan_setCan]
    rfl
  · cases l <;> rfl

end Sys2Proof.Recirculation

namespace Sys2Proof.Timers

open Sys2Proof Sys2Proof.Machine

variable {s : State} {p : Pos} {d : ChanId}

/-! ### A command of a part that runs -/

theorem whenActive_on (on : s.power = .on) (f : State → State) : s.whenActive f = f s :=
  if_pos (by simp [State.active, on])

/-- The condition of an expiry fails in another state, and with the timer stopped. -/
theorem not_expires {α : Type} [DecidableEq α] {state wanted : α} {timer : Timer} (h : state ≠ wanted ∨ timer = none) :
    ¬ (state == wanted && timer.isSome) = true := by
  rcases h with other | rfl
  · simp [other]
  · simp

/-! ### The settle and the keep-stir timer -/

theorem settleExpiry_runs (ready : (s.can p).state = .ready) (timer : (s.can p).settleTimer ≠ none) :
    s.settleExpiry p = s.setCan p
      (if s.line.mode = .run ∨ s.line.mode = .parking then (s.can p).toStirring else (s.can p).toSettled) := by
  have running : (s.can p).settleTimer.isSome = true := Option.isSome_iff_ne_none.2 timer
  unfold State.settleExpiry
  simp only [ready, running]
  cases s.line.mode <;> rfl

theorem settleExpiry_stopped (h : (s.can p).state ≠ .ready ∨ (s.can p).settleTimer = none) : s.settleExpiry p = s :=
  if_neg (not_expires h)

theorem keepStirExpiry_runs (stirring : (s.can p).state = .stirring) (timer : (s.can p).keepTimer ≠ none) :
    s.keepStirExpiry p = (s.setCan p (s.can p).toReady).resumeRecirc p :=
  if_pos (by simp [stirring, Option.isSome_iff_ne_none.2 timer])

theorem keepStirExpiry_stopped (h : (s.can p).state ≠ .stirring ∨ (s.can p).keepTimer = none) :
    s.keepStirExpiry p = s := if_neg (not_expires h)

/-! ### The dwell and the drip timer -/

theorem dwellExpiry_runs (dwell : (s.chan d).state = .dwell) (timer : (s.chan d).dwellTimer ≠ none) :
    s.dwellExpiry d = (s.setChan d { s.chan d with dwellTimer := none }).startCheck d :=
  if_pos (by simp [dwell, Option.isSome_iff_ne_none.2 timer])

theorem dwellExpiry_stopped (h : (s.chan d).state ≠ .dwell ∨ (s.chan d).dwellTimer = none) : s.dwellExpiry d = s :=
  if_neg (not_expires h)

/-- The mass of a tin's steps is the sum over its components (R17). -/
theorem massSum_eq (s : State) (steps : List Nat) (comps : List Component) :
    massSum s steps comps = ((steps.zip comps).map fun x : Nat × Component =>
      x.1 * (s.can x.2.pos).kept.q * (s.can x.2.pos).kept.density).sum := by
  induction steps generalizing comps with
  | nil => cases comps <;> rfl
  | cons k ks ih =>
    cases comps with
    | nil => rfl
    | cons c cs => rw [massSum, ih, List.zip_cons_cons, List.map_cons, List.sum_cons]

theorem dripExpiry_runs {t : TinCtx} {j : Job} (tin : s.tin = some t) (job : s.job? t.handle = some j)
    (drip : s.station = .drip) (timer : s.dripTimer ≠ none) :
    s.dripExpiry = { s with
      station := .weighing, dripTimer := none, capture := .gross, scaleTimer := some s.line.settings.scaleSettle
      tin := some { t with stage := .weighing, expected := some (expectedMass s t.steps j.comps) } } := by
  have running : s.dripTimer.isSome = true := Option.isSome_iff_ne_none.2 timer
  simp [State.dripExpiry, tin, job, drip, running, State.startGross, State.modTin]

theorem dripExpiry_stopped (h : s.station ≠ .drip ∨ s.dripTimer = none) : s.dripExpiry = s := by
  unfold State.dripExpiry
  split
  · rfl
  · split
    · rfl
    · exact if_neg (not_expires h)

/-- Settles O57: each timer's expiry acts while the timer runs, and otherwise changes nothing. -/
theorem canisterAndHeadTimersExpire : Obligations.CanisterAndHeadTimersExpire := by
  intro s p d on
  have run (f : State → State) : (.next (s.whenActive f) : Host.Outcome State Fault Refusal) = .next (f s) :=
    congrArg _ (whenActive_on on f)
  refine ⟨fun ready timer => ⟨fun mode => ?_, fun mode => ?_⟩, fun stopped => ?_, fun stirring timer => ?_,
    fun stopped => ?_, fun dwell timer => ?_, fun stopped => ?_, fun stopped => ?_, fun t j tin job drip timer => ?_⟩
  · exact (run _).trans (by rw [settleExpiry_runs ready timer, if_pos mode]; rfl)
  · have rest : ¬ (s.line.mode = .run ∨ s.line.mode = .parking) := by rcases mode with m | m <;> simp [m]
    exact (run _).trans (by rw [settleExpiry_runs ready timer, if_neg rest]; rfl)
  · exact (run _).trans (by rw [settleExpiry_stopped stopped])
  · exact (run _).trans (by rw [keepStirExpiry_runs stirring timer]; rfl)
  · exact (run _).trans (by rw [keepStirExpiry_stopped stopped])
  · exact (run _).trans (by rw [dwellExpiry_runs dwell timer])
  · exact (run _).trans (by rw [dwellExpiry_stopped stopped])
  · exact (run _).trans (by rw [dripExpiry_stopped stopped])
  · exact (run _).trans (by rw [dripExpiry_runs tin job drip timer, expectedMass, massSum_eq])

end Sys2Proof.Timers
end

section
/-! What the canister requests share (R32, R174, R178, R179): reading the fields of a body, the position, and the taking
of a request from port W. -/

namespace Sys2Proof.Requests

open Sys2Proof Sys2Proof.Machine Sys2Proof.Submit

/-! ### Fields of a body -/

/-- A number's bytes end with its lowest. -/
theorem be_succ (w n : Nat) : be (w + 1) n = be w (n / 256) ++ [byte n] := by
  induction w with
  | zero => simp [be]
  | succ w ih => rw [be, ih, be, List.cons_append, Nat.div_div_eq_div_mul, ← pow_succ']

theorem uN_append_skip {x y : Bytes} {off : Nat} (h : x.length ≤ off) (w : Nat) :
    uN (x ++ y) off w = uN y (off - x.length) w := by
  induction w with
  | zero => rfl
  | succ w ih => rw [uN, uN, ih, u8_append_skip (by omega), Nat.sub_add_comm h]

/-- A number at the head of a body is read back (R174). -/
theorem uN_here (w : Nat) {v : Nat} (h : v < 256 ^ w) (y : Bytes) : uN (be w v ++ y) 0 w = v := by
  induction w generalizing v y with
  | zero => simp at h; rw [h]; rfl
  | succ w ih =>
    have low : u8 (be w (v / 256) ++ ([byte v] ++ y)) (0 + w) = v % 256 := by
      rw [u8_append_skip (by simp [be_length]), be_length]
      simp [u8, byte]
    rw [be_succ, List.append_assoc, uN, low, ih (by rw [pow_succ] at h; omega)]
    omega

theorem u8_here {n : Nat} (h : n < 256) (y : Bytes) : u8 (byte n :: y) 0 = n := byte_toNat h

/-- The body of an INSTALL laid out as R178 says is read as its record. -/
theorem installRecord_read (p : Byte) (r : CanRecord) (hcode : r.code.length = 3) (hlot : r.lot.length = 8)
    (hinstalled : r.installed = true) (hcount : r.count = 0) (hcapacity : r.capacity < 4294967296)
    (hheel : r.heel < 4294967296) (hlow : r.lowMark < 4294967296) (hlevel : r.level < 4294967296) (hq : r.q < 65536)
    (hdensity : r.density < 65536) (hstroke : r.stroke < 65536) (hpulse : r.pulse < 65536) (hdwell : r.dwell < 65536)
    (hrecirc : r.recircTime < 65536) (hsettle : r.settleLimit < 256) (hkeep : r.keepStir < 256) :
    installRecord (p :: (r.code ++ be 4 r.capacity ++ be 4 r.heel ++ be 4 r.lowMark ++ be 2 r.q ++ be 2 r.density ++
      be 2 r.stroke ++ be 2 r.pulse ++ be 2 r.dwell ++ [byte r.settleLimit] ++ be 2 r.recircTime ++ [byte r.keepStir] ++
      be 4 r.level ++ r.lot)) = r := by
  have text (n : Nat) (x y : Bytes) (h : x.length = n) : textAt (x ++ y) 0 n = x := textAt_append_here h y
  have text' (x : Bytes) (h : x.length = 8) : textAt x 0 8 = x := by simp [textAt, ← h]
  have one (n : Nat) (h : n < 256) (y : Bytes) : u8 ([byte n] ++ y) 0 = n := byte_toNat h
  obtain ⟨installed, code, capacity, heel, lowMark, q, density, stroke, pulse, dwell, settleLimit, recircTime, keepStir,
    level, lot, count⟩ := r
  subst hinstalled hcount
  simp only at *
  rw [show ∀ l : Bytes, p :: l = [p] ++ l from fun _ => rfl]
  simp only [installRecord, List.append_assoc]
  simp (disch := simp [be_length, *]) only [u8_append_skip, uN_append_skip, textAt_append_skip, be_length, hcode,
    List.length_singleton]
  norm_num only [uN_here, text, text', one, *]

/-! ### The position -/

theorem bodyPos_eq {b : Bytes} {p : Pos} (h : u8 b 0 = p.val) : bodyPos b = p := by
  rw [bodyPos, h]; exact Fin.ofNat_val_eq_self p

theorem posCheck_pass {b : Bytes} {p : Pos} (h : u8 b 0 = p.val) : posCheck b = none :=
  refuseIf_of_not (by rw [h]; exact decide_eq_false (by omega)) _

theorem posCheck_above {b : Bytes} (h : 15 < u8 b 0) : posCheck b = some (nakField .range 1) :=
  refuseIf_of (decide_eq_true h) _

theorem u8_position (p : Pos) (rest : Bytes) : u8 (byte p.val :: rest) 0 = p.val := u8_here (by omega) rest

/-! ### The taking of a request -/

section
variable {s : State} {p : Port} {k : ReqKind} {tag : Byte} {body : Bytes} {refusal : State → Option Nak}
  {effect : State → State × Bytes}

/-- A request that fails a check which reads nothing of its port is answered with the refusal. -/
theorem taken_refused (ht : s.Takes p k tag body) (ha : admits k p = true) (hp : refusal (s.popHold p) = refusal s)
    {r : Nak} (hr : refusal s = some r) {detail : Bytes} (hd : r.bytes = detail) :
    (.next (s.take p k tag body refusal effect) : Host.Outcome State Fault Refusal) =
      .next (s.replied p k tag detail) := by
  rw [take_refused ht ha (hp.trans hr), hd]

/-- A request that passes its checks has its effect on the state without its frame, and is answered OK. -/
theorem taken_ok (ht : s.Takes p k tag body) (ha : admits k p = true) (hp : refusal (s.popHold p) = refusal s)
    (hr : refusal s = none) {t : State} {content : Bytes} (he : effect (s.popHold p) = (t, content)) :
    (.next (s.take p k tag body refusal effect) : Host.Outcome State Fault Refusal) =
      .next (t.answered p k tag content) := by
  rw [take_ok ht ha (hp.trans hr), he]; rfl

end

end Sys2Proof.Requests
end

section
/-! INSTALL and REMOVE (R32 to R34): their checks in order, their effects, and the statements O26 and O27. -/

namespace Sys2Proof.Requests

open Sys2Proof Sys2Proof.Machine Sys2Proof.Submit

variable {s : State} {tag : Byte} {body : Bytes}

/-! ### The checks of INSTALL -/

/-- INSTALL answers its first refusal. -/
theorem install_refused (ht : s.Takes .w .install tag body) {r : Nak} (hr : installRefusal body s = some r)
    {detail : Bytes} (hd : r.bytes = detail) :
    exec (.install .w tag body) s = .next (s.replied .w .install tag detail) :=
  taken_refused (effect := installEffect body) ht rfl rfl hr hd

/-- The ranges of an INSTALL, field by field (R21, R33). -/
theorem installFields_eq (r : CanRecord) :
    (declaredChecks r ++ [(decide (r.heel ≤ r.level), 14)]).map Prod.swap = r.installFields := by
  simp only [CanRecord.installFields, Bool.decide_and, Bool.decide_or]
  rfl

/-- RANGE names the first field at fault (log entry 39). -/
theorem rangeRefusal_first {l : List (Bool × Nat)} {pre post : List (Nat × Bool)} {f : Nat}
    (hl : l.map Prod.swap = pre ++ (f, false) :: post) (hpre : ∀ x ∈ pre, x.2 = true) :
    rangeRefusal l = some (nakField .range f) := by
  have swapped : rangeRefusal l =
      ((l.map Prod.swap).find? fun x => !x.2).map fun x => nakField .range x.1 := by
    rw [List.find?_map, Option.map_map]; rfl
  rw [swapped, hl, List.find?_append, List.find?_eq_none.2 fun x hx => by simp [hpre x hx]]
  rfl

/-- The checks of INSTALL on a body of its length, with printable texts, at a vacant position and under a code that is
not blank. -/
structure InstallNamed (s : State) (body : Bytes) (p : Pos) : Prop where
  length : body.length = 42
  code : printable (installRecord body).code = true
  lot : printable (installRecord body).lot = true
  position : u8 body 0 = p.val
  vacant : (s.can p).state = .vacant
  notBlank : blankText (installRecord body).code = false

theorem installRefusal_named {p : Pos} (h : InstallNamed s body p) :
    installRefusal body s = firstRefusal
      [refuseIf (s.posOfCode (installRecord body).code).isSome (nak .duplicate),
        rangeRefusal (declaredChecks (installRecord body) ++
          [(decide ((installRecord body).heel ≤ (installRecord body).level), 14)])] := by
  simp [installRefusal, h.length, h.code, h.lot, posCheck_pass h.position, bodyPos_eq h.position, h.vacant, h.notBlank]

theorem notTaken {code : Text} (h : ∀ q, (s.can q).kept.installed = true → (s.can q).kept.code ≠ code) :
    (s.posOfCode code).isSome = false := by
  rw [← Bool.not_eq_true, posOfCode_isSome]
  exact fun ⟨q, installed, same⟩ => h q installed same

/-! ### The effect of INSTALL -/

/-- A canister set at its position and stored is put there (R41). -/
theorem setCan_storeCan (t : State) (p : Pos) (c : Canister) : (t.setCan p c).storeCan p = t.putCan p c := by
  simp [State.storeCan, State.putCan, State.setCan, State.can]

/-- A canister is put at its position with an empty piston, and stored (R33, R41, R99). -/
theorem putCan_setPump (t : State) (p : Pos) (c : Canister) (v : Pump) :
    ((t.setCan p c).setPump p v).storeCan p = (t.putCan p c).setPump p v := by
  simp [State.storeCan, State.putCan, State.setPump, State.setCan, State.can]

/-- Putting a canister twice at one position leaves the second, where the stored fields agree. -/
theorem setCan_putCan (t : State) (p : Pos) {c d : Canister} (h : d.kept = c.kept) :
    (t.putCan p c).setCan p d = t.putCan p d := by
  simp [State.putCan, State.setCan, h]

theorem can_putCan (t : State) (p : Pos) (c : Canister) : (t.putCan p c).can p = c := can_setCan_same t p c

/-- A latch that is not armed, or usable volume above the low mark, leaves nothing to report (R31). -/
theorem examineLow_leaves {p : Pos} (h : (s.can p).latch = false ∨ (s.can p).kept.lowMark < (s.can p).kept.usable) :
    s.examineLow p = s := by
  refine if_neg fun low => ?_
  simp only [Bool.and_eq_true, decide_eq_true_eq] at low
  rcases h with h | h
  · rw [h] at low; cases low.1
  · omega

/-- An armed latch disarms at or below the low mark, with CANISTER-LOW (R31). -/
theorem examineLow_disarms {p : Pos} (latch : (s.can p).latch = true)
    (low : (s.can p).kept.usable ≤ (s.can p).kept.lowMark) :
    s.examineLow p =
      (s.setCan p { s.can p with latch := false }).notify .w (.canisterLow p (s.can p).kept.usable) :=
  if_pos (by rw [latch]; exact decide_eq_true low)

/-- A SETTLED canister, as INSTALL puts it (R33). -/
def standing (r : CanRecord) (latch : Bool) : Canister :=
  { kept := r, state := .settled, latch := latch, demand := false, settleTimer := none, keepTimer := none
    stirrer := false }

/-- The latch of a position with usable volume above the low mark is armed (R31). -/
def armed (r : CanRecord) : Bool := decide (r.lowMark < r.usable)

/-- The examination of an armed canister that has just been put (R31, R33). -/
theorem examineLow_standing (t : State) (p : Pos) (r : CanRecord) (v : Pump) :
    ((t.putCan p (standing r true)).setPump p v).examineLow p =
      if armed r then (t.putCan p (standing r (armed r))).setPump p v
      else ((t.putCan p (standing r (armed r))).setPump p v).notify .w (.canisterLow p r.usable) := by
  have here : ((t.putCan p (standing r true)).setPump p v).can p = standing r true := can_putCan t p _
  by_cases h : r.lowMark < r.usable
  · have high : armed r = true := decide_eq_true h
    rw [high, if_pos rfl]
    exact examineLow_leaves (.inr (by rw [here]; exact h))
  · have low : armed r = false := decide_eq_false h
    rw [low, if_neg (by decide), ← setCan_putCan t p (c := standing r true) (d := standing r false) rfl,
      examineLow_disarms (by rw [here]; rfl) (by rw [here]; exact Nat.not_lt.1 h), here]
    rfl

theorem installEffect_eq (t : State) (b : Bytes) {r : CanRecord} (h : installed (installRecord b) = r) :
    installEffect b t =
      (if armed r then
        (t.putCan (bodyPos b) (standing r (armed r))).setPump (bodyPos b) Pump.start
       else ((t.putCan (bodyPos b) (standing r (armed r))).setPump (bodyPos b) Pump.start).notify .w
        (.canisterLow (bodyPos b) r.usable),
        [byte (bodyPos b).val, 0, 0] ++ be 4 r.level ++ [flag (armed r)]) := by
  subst h
  have effect : installEffect b t =
      ((((t.putCan (bodyPos b) (standing (installed (installRecord b)) true)).setPump (bodyPos b)
          Pump.start).examineLow (bodyPos b)),
        [byte (bodyPos b).val, 0, 0] ++ be 4 (installed (installRecord b)).level ++
          [flag ((((t.putCan (bodyPos b) (standing (installed (installRecord b)) true)).setPump (bodyPos b)
            Pump.start).examineLow (bodyPos b)).can (bodyPos b)).latch]) := by
    rw [← putCan_setPump]; rfl
  rw [effect, examineLow_standing]
  cases armed (installed (installRecord b))
  · rw [if_neg (by decide), State.notify, can_setPort, can_setPump, can_putCan]; rfl
  · rw [if_pos rfl, can_setPump, can_putCan]; rfl

/-- An INSTALL that passes every check. -/
theorem exec_install_ok {p : Pos} (ht : s.Takes .w .install tag body) (h : InstallNamed s body p)
    (fresh : ∀ q, (s.can q).kept.installed = true → (s.can q).kept.code ≠ (installRecord body).code)
    (declared : (installRecord body).Declared) (heel : (installRecord body).heel ≤ (installRecord body).level) :
    exec (.install .w tag body) s = .next ((installEffect body (s.popHold .w)).1.answered .w .install tag
      (installEffect body (s.popHold .w)).2) := by
  have ranges : rangeRefusal (declaredChecks (installRecord body) ++
      [(decide ((installRecord body).heel ≤ (installRecord body).level), 14)]) = none := by
    rw [StockLaws.rangeRefusal_eq_none, List.forall_mem_append, StockLaws.declaredChecks_iff]
    exact ⟨declared, by simpa using heel⟩
  refine taken_ok (refusal := installRefusal body) (effect := installEffect body) ht rfl rfl ?_ rfl
  rw [installRefusal_named h, notTaken fresh, ranges]
  rfl

/-- Settles O26: the checks of INSTALL in order, its body, and its effect. -/
theorem installFillsAVacantPosition : Obligations.InstallFillsAVacantPosition := by
  refine ⟨fun s tag body ht => ?_, installRecord_read, fun s tag body r p ht length position hr vacant declared code
    notBlank lot => ?_⟩
  · have answer {r : Nak} (hr : installRefusal body s = some r) := install_refused ht hr (detail := r.bytes) rfl
    refine ⟨fun length => answer (r := nak .format) ?_, fun length => ⟨fun code => answer (r := nakField .format 2) ?_,
      fun code => ⟨fun lot => answer (r := nakField .format 15) ?_, fun lot =>
        ⟨fun above => answer (r := nakField .range 1) ?_, fun p position =>
          ⟨fun taken => answer (r := nak .state) ?_, fun vacant =>
            ⟨fun blank => answer (r := nakField .format 2) ?_, fun notBlank => ⟨fun same => ?_, fun fresh pre f post
              fields hpre => ?_⟩⟩⟩⟩⟩⟩⟩
    · simp [installRefusal, length]
    · simp [installRefusal, length, code]
    · simp [installRefusal, length, code, lot]
    · simp [installRefusal, length, code, lot, posCheck_above above]
    · simp [installRefusal, length, code, lot, posCheck_pass position, bodyPos_eq position,
        refuseIf_of (bne_iff_ne.2 taken)]
    · simp [installRefusal, length, code, lot, posCheck_pass position, bodyPos_eq position, vacant, blank]
    · refine answer (r := nak .duplicate) ?_
      rw [installRefusal_named ⟨length, code, lot, position, vacant, notBlank⟩, (posOfCode_isSome s _).2 same]
      rfl
    · refine answer (r := nakField .range f) ?_
      rw [installRefusal_named ⟨length, code, lot, position, vacant, notBlank⟩, notTaken fresh,
        rangeRefusal_first ((installFields_eq _).trans fields) hpre]
      rfl
  · subst hr
    have named : InstallNamed s body p := ⟨length, code, lot, position, vacant, notBlank⟩
    refine ⟨fun same => ?_, fun fresh => ⟨fun low => ?_, fun heel => ?_⟩⟩
    · refine install_refused ht (r := nak .duplicate) ?_ rfl
      rw [installRefusal_named named, (posOfCode_isSome s _).2 same]
      rfl
    · refine install_refused ht (r := nakField .range 14) ?_ rfl
      have ranges := rangeRefusal_first (l := declaredChecks (installRecord body) ++
        [(decide ((installRecord body).heel ≤ (installRecord body).level), 14)])
        (pre := (declaredChecks (installRecord body)).map Prod.swap) (f := 14) (post := [])
        (by simp [low]) (by simpa using (StockLaws.declaredChecks_iff _).2 declared)
      rw [installRefusal_named named, notTaken fresh, ranges]
      rfl
    · rw [exec_install_ok ht named fresh declared heel, installEffect_eq _ _ rfl, bodyPos_eq position]
      rfl

end Sys2Proof.Requests
end

section
/-! REMOVE and CALIBRATE (R34, R35), and the statements O27 and O28. -/

namespace Sys2Proof.Requests

open Sys2Proof Sys2Proof.Machine Sys2Proof.Submit

variable {s : State} {tag : Byte} {body : Bytes}

/-! ### REMOVE -/

/-- REMOVE answers its first refusal. -/
theorem remove_refused (ht : s.Takes .w .remove tag body) {r : Nak} (hr : removeRefusal body s = some r)
    {detail : Bytes} (hd : r.bytes = detail) :
    exec (.remove .w tag body) s = .next (s.replied .w .remove tag detail) :=
  taken_refused (effect := removeEffect body) ht rfl rfl hr hd

/-- A job that is not DONE or CANCELLED names the canister (R34). -/
theorem named_iff (s : State) (p : Pos) : s.named p = true ↔
    ∃ i j c, (s.slot i).job = some j ∧ j.state ≠ .done ∧ j.state ≠ .cancelled ∧ c ∈ j.comps ∧ c.pos = p := by
  have all : ∀ i, i ∈ allSlots := by decide
  simp only [State.named, State.jobs, List.any_eq_true, List.mem_filterMap, Option.map_eq_some_iff, Bool.and_eq_true,
    bne_iff_ne, beq_iff_eq]
  constructor
  · rintro ⟨x, ⟨i, -, j, slot, rfl⟩, ⟨notDone, notCancelled⟩, c, mem, pos⟩
    exact ⟨i, j, c, slot, notDone, notCancelled, mem, pos⟩
  · rintro ⟨i, j, c, slot, notDone, notCancelled, mem, pos⟩
    exact ⟨_, ⟨i, all i, j, slot, rfl⟩, ⟨notDone, notCancelled⟩, c, mem, pos⟩

/-- Settles O27: the checks of REMOVE in order, and its effect. -/
theorem removeVacatesAPosition : Obligations.RemoveVacatesAPosition := by
  refine ⟨fun s tag body ht => ⟨fun length => ?_, fun length above => ?_⟩, fun s tag p ht => ?_⟩
  · exact remove_refused ht (r := nak .format) (by simp [removeRefusal, length]) rfl
  · exact remove_refused ht (r := nakField .range 1) (by simp [removeRefusal, length, posCheck_above above]) rfl
  have position : u8 [byte p.val] 0 = p.val := u8_position p []
  refine ⟨fun vacant => ?_, fun occupied => ⟨fun names => ?_, fun free => ⟨fun busy => ?_, fun idle => ?_⟩⟩⟩
  · exact remove_refused ht (r := nak .state)
      (by simp [removeRefusal, posCheck_pass position, bodyPos_eq position, vacant]) rfl
  · exact remove_refused ht (r := nak .covered)
      (by simp [removeRefusal, posCheck_pass position, bodyPos_eq position, beq_false_of_ne occupied,
        (named_iff s p).2 names]) rfl
  all_goals
    have unnamed : s.named p = false := by
      rw [← Bool.not_eq_true, named_iff]
      exact fun ⟨i, j, c, slot, notDone, notCancelled, mem, pos⟩ => free i j c slot notDone notCancelled mem pos
  · exact remove_refused ht (r := nak .busy) (by
      simp [removeRefusal, posCheck_pass position, bodyPos_eq position, beq_false_of_ne occupied, unnamed,
        refuseIf_of (bne_iff_ne.2 busy)]) rfl
  · refine taken_ok (refusal := removeRefusal [byte p.val]) (effect := removeEffect [byte p.val]) ht rfl rfl ?_ ?_
    · simp [removeRefusal, posCheck_pass position, bodyPos_eq position, beq_false_of_ne occupied, unnamed, idle]
    · simp only [removeEffect, bodyPos_eq position, putCan_setPump]; rfl

/-! ### CALIBRATE -/

/-- CALIBRATE answers its first refusal. -/
theorem calibrate_refused (ht : s.Takes .w .calibrate tag body) {r : Nak} (hr : calibrateRefusal body s = some r)
    {detail : Bytes} (hd : r.bytes = detail) :
    exec (.calibrate .w tag body) s = .next (s.replied .w .calibrate tag detail) :=
  taken_refused (effect := calibrateEffect body) ht rfl rfl hr hd

theorem range_has_not {lo hi n : Nat} (h : n < lo ∨ hi < n) : (⟨lo, hi⟩ : Config.Range).has n = false := by
  rw [← Bool.not_eq_true, range_has]; omega

/-- A CALIBRATE body laid out as R178 says is read as its fields. -/
theorem calibrateBody_read (p : Pos) {q d : Nat} (hq : q < 65536) (hd : d < 65536) :
    uN (byte p.val :: (be 2 q ++ be 2 d)) 1 2 = q ∧ uN (byte p.val :: (be 2 q ++ be 2 d)) 3 2 = d :=
  ⟨uN_two (x := [byte p.val]) rfl hq, uN_two (x := byte p.val :: be 2 q) (y := []) rfl hd⟩

/-- The checks of CALIBRATE on an installed canister, with both values in range. -/
theorem calibrateRefusal_fits {p : Pos} (length : body.length = 5) (position : u8 body 0 = p.val)
    (occupied : (s.can p).state ≠ .vacant) (hq : 100 ≤ uN body 1 2 ∧ uN body 1 2 ≤ 60000)
    (hd : 800 ≤ uN body 3 2 ∧ uN body 3 2 ≤ 2500) :
    calibrateRefusal body s =
      refuseIf (decide ((s.can p).kept.usable < s.reservedSteps p * uN body 1 2)) (nak .covered) := by
  have qFits : Config.stepVolumeRange.has (uN body 1 2) = true := (range_has _ _ _).2 hq
  have dFits : Config.densityRange.has (uN body 3 2) = true := (range_has _ _ _).2 hd
  simp only [calibrateRefusal, length, posCheck_pass position, bodyPos_eq position, beq_false_of_ne occupied, qFits,
    dFits, ne_eq, not_true_eq_false, decide_false, Bool.not_true, refuseIf_false, firstRefusal_none]
  cases refuseIf (decide ((s.can p).kept.usable < s.reservedSteps p * uN body 1 2)) (nak .covered) <;> rfl

/-- Settles O28: the checks of CALIBRATE in order, and its effect. -/
theorem calibrateReplacesStepVolumeAndDensity : Obligations.CalibrateReplacesStepVolumeAndDensity := by
  refine ⟨fun s tag body ht => ?_, fun s tag p q d ht occupied qLow qHigh dLow dHigh => ?_⟩
  · refine ⟨fun length => ?_, fun length => ⟨fun above => ?_, fun p position => ⟨fun vacant => ?_, fun occupied =>
      ⟨fun qOut => ?_, fun qLow qHigh dOut => ?_⟩⟩⟩⟩
    · exact calibrate_refused ht (r := nak .format) (by simp [calibrateRefusal, length]) rfl
    · exact calibrate_refused ht (r := nakField .range 1)
        (by simp [calibrateRefusal, length, posCheck_above above]) rfl
    · exact calibrate_refused ht (r := nak .state)
        (by simp [calibrateRefusal, length, posCheck_pass position, bodyPos_eq position, vacant]) rfl
    · have out : Config.stepVolumeRange.has (uN body 1 2) = false := range_has_not qOut
      exact calibrate_refused ht (r := nakField .range 2)
        (by simp [calibrateRefusal, length, posCheck_pass position, bodyPos_eq position, beq_false_of_ne occupied,
          out]) rfl
    · have fits : Config.stepVolumeRange.has (uN body 1 2) = true := (range_has _ _ _).2 ⟨qLow, qHigh⟩
      have out : Config.densityRange.has (uN body 3 2) = false := range_has_not dOut
      exact calibrate_refused ht (r := nakField .range 3) (by
        simp [calibrateRefusal, length, posCheck_pass position, bodyPos_eq position, beq_false_of_ne occupied, fits,
          out]) rfl
  · obtain ⟨readQ, readD⟩ := calibrateBody_read p (q := q) (d := d) (by omega) (by omega)
    have position := u8_position p (be 2 q ++ be 2 d)
    have refusal := calibrateRefusal_fits (s := s) (body := byte p.val :: (be 2 q ++ be 2 d)) rfl position occupied
      (by rw [readQ]; exact ⟨qLow, qHigh⟩) (by rw [readD]; exact ⟨dLow, dHigh⟩)
    rw [readQ] at refusal
    refine ⟨fun covered => ?_, fun free => ?_⟩
    · exact calibrate_refused ht (r := nak .covered) (refusal.trans (refuseIf_of (decide_eq_true covered) _)) rfl
    · refine taken_ok (refusal := calibrateRefusal (byte p.val :: (be 2 q ++ be 2 d)))
        (effect := calibrateEffect (byte p.val :: (be 2 q ++ be 2 d))) ht rfl rfl
        (refusal.trans (refuseIf_of_not (decide_eq_false (Nat.not_lt.2 free)) _)) ?_
      simp only [calibrateEffect, bodyPos_eq position, readQ, readD, setCan_storeCan]
      rfl

end Sys2Proof.Requests
end

section
/-! REFILL-BEGIN and REFILL-END (R36 to R38): what the called tin and the station tin need, the checks in order, the
effects, and the statement O29. -/

namespace Sys2Proof.Requests

open Sys2Proof Sys2Proof.Machine Sys2Proof.Submit

variable {s : State} {tag : Byte} {body : Bytes}

/-! ### What a tin needs of a position -/

/-- A position is needed where its one component has a step (R36). -/
theorem needOn_pos {cs : List Component} (nodup : (cs.map fun c => c.pos).Nodup) (ks : List Nat) (p : Pos) :
    0 < needOn p ks cs ↔ ∃ (i : Nat) (c : Component), cs[i]? = some c ∧ c.pos = p ∧ 0 < ks.getD i 0 := by
  induction cs generalizing ks with
  | nil => cases ks <;> simp [needOn]
  | cons c cs ih =>
    obtain ⟨fresh, nodup⟩ := List.nodup_cons.1 nodup
    cases ks with
    | nil => simp [needOn]
    | cons k ks =>
      rw [needOn]
      split
      · next here =>
        refine ⟨fun pos => ⟨0, c, rfl, here, pos⟩, ?_⟩
        rintro ⟨i, d, hd, there, pos⟩
        cases i with
        | zero => exact pos
        | succ i => exact absurd (List.mem_map.2 ⟨d, List.mem_of_getElem? (l := cs) hd, there.trans here.symm⟩) fresh
      · next other =>
        rw [ih nodup]
        constructor
        · rintro ⟨i, d, h⟩
          exact ⟨i + 1, d, h⟩
        · rintro ⟨i, d, hd, there, pos⟩
          cases i with
          | zero => obtain rfl := Option.some.inj hd; exact absurd there other
          | succ i => exact ⟨i, d, hd, there, pos⟩

/-- The called tin needs each canister its next counts give a step (R9, R36). -/
theorem calledNeeds_iff {c : Call} {j : Job} (call : s.call = some c) (job : s.job? c.handle = some j)
    (nodup : (j.comps.map fun x : Component => x.pos).Nodup) (p : Pos) :
    s.calledNeeds p = true ↔ ∃ x ∈ j.comps, x.pos = p ∧
      cumSteps j.counted x.exact (x.qSnap * j.vref) < cumSteps (j.counted + 1) x.exact (x.qSnap * j.vref) := by
  have needs : s.calledNeeds p = decide (0 < needOn p j.nextSteps j.comps) := by
    simp only [State.calledNeeds, call, job]
  have step {i : Nat} {x : Component} (hx : j.comps[i]? = some x) :
      j.nextSteps.getD i 0 = j.cumAt x (j.counted + 1) - j.cumAt x j.counted := by
    rw [List.getD_eq_getElem?_getD, Formula.nextSteps_getElem?, hx]; rfl
  rw [needs, decide_eq_true_iff, needOn_pos nodup]
  constructor
  · rintro ⟨i, x, hx, pos, some⟩
    rw [step hx, Nat.sub_pos_iff_lt] at some
    exact ⟨x, List.mem_of_getElem? hx, pos, some⟩
  · rintro ⟨x, mem, pos, some⟩
    obtain ⟨i, hx⟩ := List.mem_iff_getElem?.1 mem
    exact ⟨i, x, hx, pos, by rw [step hx]; exact Nat.sub_pos_of_lt some⟩

/-- The station tin needs each canister with steps not yet dispensed (R36, R117). -/
theorem stationNeeds_iff {t : TinCtx} {j : Job} (tin : s.tin = some t) (job : s.job? t.handle = some j)
    (nodup : (j.comps.map fun x : Component => x.pos).Nodup) (steps : t.steps.length = j.comps.length)
    (dispensed : t.dispensed.length = j.comps.length) (p : Pos) :
    s.stationNeeds p = true ↔ t.route = .normal ∧ (s.station = .taring ∨ s.station = .dispensing) ∧
      ∃ (i : Nat) (x : Component), j.comps[i]? = some x ∧ x.pos = p ∧ t.dispensed.getD i 0 < t.steps.getD i 0 := by
  have needs : s.stationNeeds p = (t.route == .normal && (s.station == .taring || s.station == .dispensing) &&
      decide (0 < needOn p (List.zipWith (· - ·) t.steps t.dispensed) j.comps)) := by
    simp only [State.stationNeeds, tin, job]
  have left {i : Nat} {x : Component} (hx : j.comps[i]? = some x) :
      (List.zipWith (· - ·) t.steps t.dispensed).getD i 0 = t.steps.getD i 0 - t.dispensed.getD i 0 := by
    have inside : i < j.comps.length := (List.getElem?_eq_some_iff.1 hx).1
    simp [List.getD_eq_getElem?_getD, List.getElem?_zipWith, List.getElem?_eq_getElem (steps ▸ inside),
      List.getElem?_eq_getElem (dispensed ▸ inside)]
  rw [needs]
  simp only [Bool.and_eq_true, Bool.or_eq_true, beq_iff_eq, decide_eq_true_eq, needOn_pos nodup, and_assoc]
  refine and_congr_right fun _ => and_congr_right fun _ => exists_congr fun i => exists_congr fun x => ?_
  refine and_congr_right fun hx => and_congr_right fun _ => ?_
  rw [left hx, Nat.sub_pos_iff_lt]

/-! ### The checks and the effects -/

/-- REFILL-BEGIN answers its first refusal. -/
theorem refillBegin_refused (ht : s.Takes .w .refillBegin tag body) {r : Nak} (hr : refillBeginRefusal body s = some r)
    {detail : Bytes} (hd : r.bytes = detail) :
    exec (.refillBegin .w tag body) s = .next (s.replied .w .refillBegin tag detail) :=
  taken_refused (effect := refillBeginEffect body) ht rfl rfl hr hd

/-- REFILL-END answers its first refusal. -/
theorem refillEnd_refused (ht : s.Takes .w .refillEnd tag body) {r : Nak} (hr : refillEndRefusal body s = some r)
    {detail : Bytes} (hd : r.bytes = detail) :
    exec (.refillEnd .w tag body) s = .next (s.replied .w .refillEnd tag detail) :=
  taken_refused (effect := refillEndEffect body) ht rfl rfl hr hd

/-- The check of REFILL-BEGIN on an installed canister that is not LOCKED. -/
theorem refillBeginRefusal_stands {p : Pos} (vacant : (s.can p).state ≠ .vacant) (locked : (s.can p).state ≠ .locked) :
    refillBeginRefusal [byte p.val] s =
      refuseIf (s.calledNeeds p || s.stationNeeds p || (s.pump p).state != .idle) (nak .busy) := by
  have position := u8_position p []
  simp only [refillBeginRefusal, posCheck_pass position, bodyPos_eq position, beq_false_of_ne vacant,
    beq_false_of_ne locked, List.length_singleton, ne_eq, not_true_eq_false, decide_false, Bool.or_self, refuseIf_false,
    firstRefusal_none]
  cases refuseIf (s.calledNeeds p || s.stationNeeds p || (s.pump p).state != .idle) (nak .busy) <;> rfl

/-- A REFILL-END body laid out as R178 says is read as its fields. -/
theorem refillEndBody_read (p : Pos) {v : Nat} {lot : Text} (hv : v < 4294967296) (hlot : lot.length = 8) :
    uN (byte p.val :: (be 4 v ++ lot)) 1 4 = v ∧ textAt (byte p.val :: (be 4 v ++ lot)) 5 8 = lot := by
  constructor
  · exact (uN_append_skip (x := [byte p.val]) (Nat.le_refl 1) 4).trans (uN_here 4 hv lot)
  · have field := textAt_field (x := byte p.val :: be 4 v) (off := 5) (by simp [be_length]) hlot []
    rwa [List.append_nil] at field

/-- REFILL-END of a LOCKED canister, with a lot id that is printable (R37, R38). -/
theorem exec_refillEnd_ok {p : Pos} {v : Nat} {lot : Text} (hv : v < 4294967296) (hlot : lot.length = 8)
    (printable : printable lot = true) (ht : s.Takes .w .refillEnd tag (byte p.val :: (be 4 v ++ lot)))
    (locked : (s.can p).state = .locked) :
    exec (.refillEnd .w tag (byte p.val :: (be 4 v ++ lot))) s = .next
      ((((((s.popHold .w).putCan p ({ s.can p with kept := (s.can p).kept.refilled v lot }.toSettled.rearm)).walk
        p).selectAfter (s.popHold .w))).answered .w .refillEnd tag
          ([byte p.val] ++ be 4 ((s.can p).kept.taken v) ++ be 4 ((s.can p).kept.refilled v lot).level ++
            be 2 ((s.can p).kept.refilled v lot).count ++ [flag (lot != (s.can p).kept.lot)])) := by
  obtain ⟨readV, readLot⟩ := refillEndBody_read p hv hlot
  have position := u8_position p (be 4 v ++ lot)
  refine taken_ok (refusal := refillEndRefusal (byte p.val :: (be 4 v ++ lot)))
    (effect := refillEndEffect (byte p.val :: (be 4 v ++ lot))) ht rfl rfl ?_ ?_
  · have length : (byte p.val :: (be 4 v ++ lot)).length = 13 := by simp [be_length, hlot]
    simp [refillEndRefusal, length, readLot, printable, posCheck_pass position, bodyPos_eq position, locked]
  · simp only [refillEndEffect, bodyPos_eq position, readV, readLot, setCan_storeCan]
    rfl

/-- Settles O29: the checks and effects of REFILL-BEGIN and REFILL-END, and what the two tins need. -/
theorem refillLocksAndFillsACanister : Obligations.RefillLocksAndFillsACanister := by
  refine ⟨fun s tag body => ⟨fun ht => ⟨fun length => ?_, fun length => ⟨fun above => ?_, fun p position state => ?_⟩⟩,
    fun ht => ⟨fun length => ?_, fun length => ⟨fun lot => ?_, fun lot =>
      ⟨fun above => ?_, fun p position state => ?_⟩⟩⟩⟩,
    fun s tag p => ⟨fun ht vacant locked => ⟨fun busy => ?_, fun called station idle => ?_⟩,
      fun v lot hv hlot printable ht locked => ?_, fun call => ?_, fun tin => ?_,
      fun c j call job nodup => calledNeeds_iff call job nodup p,
      fun t j tin job nodup steps dispensed => stationNeeds_iff tin job nodup steps dispensed p⟩⟩
  · exact refillBegin_refused ht (r := nak .format) (by simp [refillBeginRefusal, length]) rfl
  · exact refillBegin_refused ht (r := nakField .range 1)
      (by simp [refillBeginRefusal, length, posCheck_above above]) rfl
  · have stands : ((s.can p).state == .vacant || (s.can p).state == .locked) = true := by simpa using state
    exact refillBegin_refused ht (r := nak .state) (by
      simp only [refillBeginRefusal, length, posCheck_pass position, bodyPos_eq position, stands]; rfl) rfl
  · exact refillEnd_refused ht (r := nak .format) (by simp [refillEndRefusal, length]) rfl
  · exact refillEnd_refused ht (r := nakField .format 3)
      (by simp [refillEndRefusal, length, show printable (textAt body 5 8) = false from lot]) rfl
  · exact refillEnd_refused ht (r := nakField .range 1) (by
      simp [refillEndRefusal, length, show printable (textAt body 5 8) = true from lot, posCheck_above above]) rfl
  · exact refillEnd_refused ht (r := nak .state) (by
      simp [refillEndRefusal, length, show printable (textAt body 5 8) = true from lot, posCheck_pass position,
        bodyPos_eq position, refuseIf_of (bne_iff_ne.2 state)]) rfl
  · refine refillBegin_refused ht (r := nak .busy)
      ((refillBeginRefusal_stands vacant locked).trans (refuseIf_of ?_ _)) rfl
    simpa [or_assoc] using busy
  · refine taken_ok (refusal := refillBeginRefusal [byte p.val]) (effect := refillBeginEffect [byte p.val]) ht rfl rfl
      ((refillBeginRefusal_stands vacant locked).trans (refuseIf_of_not ?_ _)) ?_
    · simp [called, station, idle]
    · simp only [refillBeginEffect, bodyPos_eq (u8_position p [])]; rfl
  · rw [exec_refillEnd_ok hv hlot printable ht locked]
    simp only [List.append_assoc]
    rfl
  · simp [State.calledNeeds, call]
  · simp [State.stationNeeds, tin]

end Sys2Proof.Requests
end

section
/-! ADJUST (R39): its checks in order, its effect, and the statement O30. -/

namespace Sys2Proof.Requests

open Sys2Proof Sys2Proof.Machine Sys2Proof.Submit

variable {s : State} {tag : Byte} {body : Bytes}

/-- ADJUST answers its first refusal. -/
theorem adjust_refused (ht : s.Takes .w .adjust tag body) {r : Nak} (hr : adjustRefusal body s = some r)
    {detail : Bytes} (hd : r.bytes = detail) :
    exec (.adjust .w tag body) s = .next (s.replied .w .adjust tag detail) :=
  taken_refused (effect := adjustEffect body) ht rfl rfl hr hd

/-- An ADJUST body laid out as R178 says is read as its fields. -/
theorem adjustBody_read (p : Pos) {n v : Nat} (hn : n < 65536) (hv : v < 4294967296) :
    uN (byte p.val :: (be 2 n ++ be 4 v)) 1 2 = n ∧ uN (byte p.val :: (be 2 n ++ be 4 v)) 3 4 = v := by
  refine ⟨uN_two (x := [byte p.val]) rfl hn, ?_⟩
  have number := uN_here 4 hv []
  rw [List.append_nil] at number
  exact (uN_append_skip (x := byte p.val :: be 2 n) (Nat.le_refl 3) 4).trans number

/-- The checks of ADJUST on an installed canister whose count agrees. -/
theorem adjustRefusal_counted {p : Pos} (length : body.length = 7) (position : u8 body 0 = p.val)
    (occupied : (s.can p).state ≠ .vacant) (count : uN body 1 2 = (s.can p).kept.count) :
    adjustRefusal body s = firstRefusal
      [refuseIf (decide (uN body 3 4 < (s.can p).kept.heel) || decide ((s.can p).kept.capacity < uN body 3 4))
          (nakField .range 3),
        refuseIf (decide (uN body 3 4 - (s.can p).kept.heel < s.reservedSteps p * (s.can p).kept.q))
          (nak .covered)] := by
  simp [adjustRefusal, State.reservedVol, length, posCheck_pass position, bodyPos_eq position, beq_false_of_ne occupied,
    count]

/-- The latch after an ADJUST to level `v` (R31, R39). -/
def adjustedCan (c : Canister) (v : Nat) (latch : Bool) : Canister :=
  { c with kept := c.kept.adjusted v, latch := latch }

/-- The state an ADJUST leaves before its selection: after a fall the latch is examined, after a rise it is re-armed and
a walk follows (R31, R39). -/
def adjustedState (t : State) (p : Pos) (v : Nat) : State :=
  let c := t.can p
  let low := decide (v - c.kept.heel ≤ c.kept.lowMark)
  if v < c.kept.level then
    if c.latch && low then (t.putCan p (adjustedCan c v false)).notify .w (.canisterLow p (v - c.kept.heel))
    else t.putCan p (adjustedCan c v c.latch)
  else if c.kept.level < v then (t.putCan p (adjustedCan c v (c.latch || !low))).walk p
  else t.putCan p (adjustedCan c v c.latch)

theorem adjustEffect_eq (t : State) {p : Pos} (position : u8 body 0 = p.val) {v : Nat} (level : uN body 3 4 = v) :
    adjustEffect body t =
      ((adjustedState t p v).selectAfter t, [byte p.val] ++ be 2 (nextCount (t.can p).kept.count) ++ be 4 v) := by
  have here : (t.putCan p (adjustedCan (t.can p) v (t.can p).latch)).can p = adjustedCan (t.can p) v (t.can p).latch :=
    can_putCan t p _
  unfold adjustEffect adjustedState
  simp only [bodyPos_eq position, level, setCan_storeCan]
  refine congrArg (fun u : State => (u.selectAfter t, _)) (ite_congr rfl (fun _ => ?_) fun _ => ite_congr rfl
    (fun _ => ?_) fun _ => rfl)
  · by_cases h : (t.can p).latch = true ∧ v - (t.can p).kept.heel ≤ (t.can p).kept.lowMark
    · rw [if_pos (by simpa using h)]
      have disarmed := examineLow_disarms (s := t.putCan p (adjustedCan (t.can p) v (t.can p).latch)) (p := p)
        (by rw [here]; exact h.1) (by rw [here]; exact h.2)
      rw [here, setCan_putCan] at disarmed
      · exact disarmed
      · rfl
    · rw [if_neg (by simpa using h)]
      refine examineLow_leaves (s := t.putCan p (adjustedCan (t.can p) v (t.can p).latch)) ?_
      rw [here]
      exact (not_and_or.1 h).imp (by simp [adjustedCan]) Nat.not_le.1
  · refine congrArg (State.walk · p) ?_
    have rearmed : (adjustedCan (t.can p) v (t.can p).latch).rearm =
        adjustedCan (t.can p) v ((t.can p).latch || !decide (v - (t.can p).kept.heel ≤ (t.can p).kept.lowMark)) := by
      rw [← decide_not]
      simp only [Nat.not_le]
      rfl
    rw [← rearmed]
    refine Eq.trans (congrArg _ ?_) (setCan_putCan t p (c := adjustedCan (t.can p) v (t.can p).latch) rfl)
    exact congrArg Canister.rearm here

/-- Settles O30: the checks of ADJUST in order, and its effect. -/
theorem adjustSetsTheLevel : Obligations.AdjustSetsTheLevel := by
  refine ⟨fun s tag body ht => ⟨fun length => ?_, fun length => ⟨fun above => ?_, fun p position => ⟨fun vacant => ?_,
    fun occupied count out => ?_⟩⟩⟩, fun s tag p n v hn hv ht occupied => ?_⟩
  · exact adjust_refused ht (r := nak .format) (by simp [adjustRefusal, length]) rfl
  · exact adjust_refused ht (r := nakField .range 1) (by simp [adjustRefusal, length, posCheck_above above]) rfl
  · exact adjust_refused ht (r := nak .state)
      (by simp [adjustRefusal, length, posCheck_pass position, bodyPos_eq position, vacant]) rfl
  · refine adjust_refused ht (r := nakField .range 3) ?_ rfl
    rw [adjustRefusal_counted length position occupied count, refuseIf_of (by simpa using out)]
    rfl
  obtain ⟨readN, readV⟩ := adjustBody_read p hn hv
  have position := u8_position p (be 2 n ++ be 4 v)
  refine ⟨fun stale => ?_, fun count heel capacity => ?_⟩
  · refine adjust_refused ht (r := ⟨.stale, 0, 0, be 2 (s.can p).kept.count ++ be 4 (s.can p).kept.level⟩) ?_ rfl
    have length : (byte p.val :: (be 2 n ++ be 4 v)).length = 7 := rfl
    simp [adjustRefusal, length, posCheck_pass position, bodyPos_eq position, beq_false_of_ne occupied, readN, stale]
  · have checks := adjustRefusal_counted (s := s) (body := byte p.val :: (be 2 n ++ be 4 v)) rfl position occupied
      (readN.trans count)
    rw [readV, refuseIf_of_not (by simp [heel, capacity]), firstRefusal_none] at checks
    refine ⟨fun covered => ?_, fun free => ?_⟩
    · exact adjust_refused ht (r := nak .covered) (checks.trans (by rw [refuseIf_of (decide_eq_true covered)]; rfl)) rfl
    · refine taken_ok (refusal := adjustRefusal (byte p.val :: (be 2 n ++ be 4 v)))
        (effect := adjustEffect (byte p.val :: (be 2 n ++ be 4 v))) ht rfl rfl
        (checks.trans (by rw [refuseIf_of_not (decide_eq_false (Nat.not_lt.2 free))]; rfl)) ?_
      exact adjustEffect_eq _ position readV

end Sys2Proof.Requests
end

section
/-! The requests that read (R40, R59, R60, R79, R80, R173): what READ-JOB and READ-TIN check in common, what each of the
four answers, and the statement O31. -/

namespace Sys2Proof.Reading

open Sys2Proof Sys2Proof.Machine Sys2Proof.Submit Sys2Proof.Requests

/-! ### The checks of READ-JOB and READ-TIN -/

/-- The refusal of a request that reads a numbered part of a job: `wrong` says which numbers no job has, `last` the
highest of the job named (R60). -/
def readRefusal (p : Port) (b : Bytes) (wrong : Nat → Bool) (last : Job → Nat) (s : State) : Option Nak :=
  firstRefusal (jobChecks p b 3 [refuseIf (wrong (u8 b 2)) (nakField .range 2)] s ++ [indexCheck b s last])

theorem readJobRefusal_eq (p : Port) (b : Bytes) (s : State) :
    readJobRefusal p b s = readRefusal p b (fun i => decide (6 < i)) (fun j => j.comps.length) s := rfl

theorem readTinRefusal_eq (p : Port) (b : Bytes) (s : State) :
    readTinRefusal p b s = readRefusal p b (fun i => decide (i = 0)) (fun j => j.n) s := rfl

section
variable {s : State} {p : Port} {b : Bytes} {wrong : Nat → Bool} {last : Job → Nat}

theorem readRefusal_length (h : b.length ≠ 3) : readRefusal p b wrong last s = some (nak .format) := by
  simp [readRefusal, jobChecks, h]

theorem readRefusal_handle (length : b.length = 3) (h : 23 < u8 b 0 ∨ u8 b 1 = 0) :
    readRefusal p b wrong last s = some (nakField .range 1) := by
  have bad : (decide (23 < u8 b 0) || decide (u8 b 1 = 0)) = true := by simpa using h
  simp [readRefusal, jobChecks, length, refuseIf_of bad]

/-- A body with a handle and a number some job may have is checked against the job named. -/
theorem readRefusal_named (length : b.length = 3) (slot : u8 b 0 ≤ 23) (gen : 1 ≤ u8 b 1) :
    readRefusal p b wrong last s = firstRefusal
      [refuseIf (wrong (u8 b 2)) (nakField .range 2), refuseIf (s.job? (handleOf b 0)).isNone (nak .noJob),
        refuseIf (p != .w && ((s.job? (handleOf b 0)).map (·.owner)) != some p) (nak .notOwner),
        indexCheck b s last] := by
  have good : (decide (23 < u8 b 0) || decide (u8 b 1 = 0)) = false := by simp; omega
  simp [readRefusal, jobChecks, length, refuseIf_of_not good]

theorem readRefusal_wrong (length : b.length = 3) (slot : u8 b 0 ≤ 23) (gen : 1 ≤ u8 b 1)
    (h : wrong (u8 b 2) = true) : readRefusal p b wrong last s = some (nakField .range 2) := by
  rw [readRefusal_named length slot gen, refuseIf_of h, firstRefusal_some]

/-- The handle that the bytes of a body name. -/
theorem handleOf_eq {i : Fin 24} {g : Nat} (slot : u8 b 0 = i.val) (gen : u8 b 1 = g) : handleOf b 0 = ⟨i, g⟩ := by
  rw [handleOf, slot, gen, Fin.ofNat_val_eq_self]

/-- NO-JOB and NOT-OWNER (R59, R60). -/
theorem readRefusal_job (length : b.length = 3) (number : wrong (u8 b 2) = false) {detail : Bytes}
    (h : s.JobRefused p b detail) : ∃ r, readRefusal p b wrong last s = some r ∧ r.bytes = detail := by
  obtain ⟨i, slot, gen, ⟨missing, rfl⟩ | ⟨j, held, same, port, owner, rfl⟩⟩ := h
  · refine ⟨nak .noJob, ?_, rfl⟩
    have none : s.job? ⟨i, u8 b 1⟩ = none := by
      unfold State.job?
      split
      · next same => exact missing.resolve_right fun other => other same
      · rfl
    rw [readRefusal_named length (by omega) gen, handleOf_eq slot rfl, none, refuseIf_of_not number]
    rfl
  · refine ⟨nak .notOwner, ?_, rfl⟩
    have named : s.job? ⟨i, u8 b 1⟩ = some j := by simp [State.job?, held, same]
    rw [readRefusal_named length (by omega) gen, handleOf_eq slot rfl, named, refuseIf_of_not number,
      refuseIf_of (show (p != .w && (Option.map (·.owner) (some j)) != some p) = true by simp [port, owner])]
    rfl

/-- A body that names a job of its port is checked against the job's highest number. -/
theorem readRefusal_own {h : Handle} {j : Job} (length : b.length = 3) (number : wrong (u8 b 2) = false)
    (job : s.job? h = some j) (own : p = .w ∨ j.owner = p) (slot : u8 b 0 = h.slot.val) (gen : u8 b 1 = h.gen)
    (valid : 1 ≤ h.gen) :
    readRefusal p b wrong last s = refuseIf (decide (last j < u8 b 2)) (nakField .range 2) := by
  have named : s.job? (handleOf b 0) = some j := by rw [handleOf_eq slot gen]; exact job
  have owned : (p != .w && (Option.map (·.owner) (some j)) != some p) = false := by
    rcases own with rfl | rfl <;> simp
  rw [readRefusal_named length (by omega) (by omega), indexCheck, named, refuseIf_of_not number, refuseIf_of_not owned]
  cases h : refuseIf (decide (last j < u8 b 2)) (nakField .range 2) <;> simp [h]

end

/-- The body of a READ-JOB or READ-TIN is read as its fields. -/
theorem readBody_read (h : Handle) {k : Nat} (gen : h.gen ≤ 255) (hk : k < 256) :
    u8 [byte h.slot.val, byte h.gen, byte k] 0 = h.slot.val ∧ u8 [byte h.slot.val, byte h.gen, byte k] 1 = h.gen ∧
      u8 [byte h.slot.val, byte h.gen, byte k] 2 = k :=
  ⟨byte_toNat (by omega), byte_toNat (by omega), byte_toNat hk⟩

/-! ### What the four requests answer -/

section
variable {s : State} {p : Port} {tag : Byte} {body : Bytes}

/-- A reading request that fails a check. -/
theorem read_refused {k : ReqKind} {refusal : State → Option Nak} {content : State → Bytes}
    (ht : s.Takes p k tag body) (ha : admits k p = true) (hp : refusal (s.popHold p) = refusal s) {r : Nak}
    (hr : refusal s = some r) {detail : Bytes} (hd : r.bytes = detail) :
    (.next (s.take p k tag body refusal fun u => (u, content u)) : Host.Outcome State Fault Refusal) =
      .next (s.replied p k tag detail) := taken_refused ht ha hp hr hd

/-- A reading request that passes its checks answers what it reads and changes nothing. -/
theorem read_ok {k : ReqKind} {refusal : State → Option Nak} {content : State → Bytes}
    (ht : s.Takes p k tag body) (ha : admits k p = true) (hp : refusal (s.popHold p) = refusal s)
    (hr : refusal s = none) {record : Bytes} (hc : content (s.popHold p) = record) :
    (.next (s.take p k tag body refusal fun u => (u, content u)) : Host.Outcome State Fault Refusal) =
      .next (s.replied p k tag ([0, 0, 0] ++ record)) := by
  rw [take_read ht ha (hp.trans hr), hc]; rfl

/-- The refusals of a request that reads a numbered part of a job, in the order of R60 (log entry 43). -/
theorem reads_refused {k : ReqKind} (row : Bytes → Instr) {wrong : Nat → Prop} [DecidablePred wrong]
    {last : Job → Nat}
    (exec_row : ∀ b, s.Takes p k tag b → ∀ r, readRefusal p b (fun i => decide (wrong i)) last s = some r →
      exec (row b) s = .next (s.replied p k tag r.bytes))
    (ht : s.Takes p k tag body) :
    (body.length ≠ 3 → exec (row body) s = .next (s.replied p k tag [0x02, 0, 0])) ∧
    (body.length = 3 →
      (23 < u8 body 0 ∨ u8 body 1 = 0 → exec (row body) s = .next (s.replied p k tag [0x03, 1, 0])) ∧
      (u8 body 0 ≤ 23 → 1 ≤ u8 body 1 → wrong (u8 body 2) →
        exec (row body) s = .next (s.replied p k tag [0x03, 2, 0])) ∧
      (¬ wrong (u8 body 2) →
        (∀ detail, s.JobRefused p body detail → exec (row body) s = .next (s.replied p k tag detail)) ∧
        ∀ (h : Handle) (j : Job), s.job? h = some j → p = .w ∨ j.owner = p → u8 body 0 = h.slot.val →
          u8 body 1 = h.gen → 1 ≤ h.gen → last j < u8 body 2 →
          exec (row body) s = .next (s.replied p k tag [0x03, 2, 0]))) := by
  have answer := exec_row body ht
  refine ⟨fun length => answer _ (readRefusal_length length), fun length => ⟨fun handle =>
    answer _ (readRefusal_handle length handle), fun slot gen number =>
      answer _ (readRefusal_wrong length slot gen (decide_eq_true number)), fun number => ⟨fun detail refused => ?_,
        fun h j job own slot gen valid above => ?_⟩⟩⟩
  · obtain ⟨r, refusal, rfl⟩ := readRefusal_job (wrong := fun i => decide (wrong i)) (last := last) length
      (decide_eq_false number) refused
    exact answer r refusal
  · exact answer (nakField .range 2)
      ((readRefusal_own length (decide_eq_false number) job own slot gen valid).trans
        (refuseIf_of (decide_eq_true above) _))

theorem readJob_refused (ht : s.Takes p .readJob tag body) {r : Nak}
    (hr : readRefusal p body (fun i => decide (6 < i)) (fun j => j.comps.length) s = some r) :
    exec (.readJob p tag body) s = .next (s.replied p .readJob tag r.bytes) :=
  read_refused (refusal := readJobRefusal p body) (content := readJobContent body) ht rfl rfl hr rfl

theorem readTin_refused (ht : s.Takes p .readTin tag body) {r : Nak}
    (hr : readRefusal p body (fun i => decide (i = 0)) (fun j => j.n) s = some r) :
    exec (.readTin p tag body) s = .next (s.replied p .readTin tag r.bytes) :=
  read_refused (refusal := readTinRefusal p body) (content := readTinContent body) ht rfl rfl hr rfl

/-- READ-JOB of a part that the named job has (R79). -/
theorem readJob_ok {h : Handle} {j : Job} {k : Nat} (job : s.job? h = some j) (valid : 1 ≤ h.gen) (gen : h.gen ≤ 255)
    (own : p = .w ∨ j.owner = p) (few : k ≤ 6) (part : k ≤ j.comps.length)
    (ht : s.Takes p .readJob tag [byte h.slot.val, byte h.gen, byte k]) {record : Bytes}
    (content : readJobContent [byte h.slot.val, byte h.gen, byte k] (s.popHold p) = record) :
    exec (.readJob p tag [byte h.slot.val, byte h.gen, byte k]) s =
      .next (s.replied p .readJob tag ([0, 0, 0] ++ record)) := by
  obtain ⟨slot, generation, number⟩ := readBody_read h gen (show k < 256 by omega)
  refine read_ok (refusal := readJobRefusal p [byte h.slot.val, byte h.gen, byte k]) ht rfl rfl ?_ content
  rw [readJobRefusal_eq, readRefusal_own rfl (by rw [number]; exact decide_eq_false (by omega)) job own slot generation
    valid, number]
  exact refuseIf_of_not (decide_eq_false (by omega)) _

/-- READ-TIN of a tin that the named job has (R80). -/
theorem readTin_ok {h : Handle} {j : Job} {k : Nat} (job : s.job? h = some j) (valid : 1 ≤ h.gen) (gen : h.gen ≤ 255)
    (own : p = .w ∨ j.owner = p) (tin : k < j.n) (few : j.n ≤ 99)
    (ht : s.Takes p .readTin tag [byte h.slot.val, byte h.gen, byte (k + 1)]) {record : Bytes}
    (content : readTinContent [byte h.slot.val, byte h.gen, byte (k + 1)] (s.popHold p) = record) :
    exec (.readTin p tag [byte h.slot.val, byte h.gen, byte (k + 1)]) s =
      .next (s.replied p .readTin tag ([0, 0, 0] ++ record)) := by
  obtain ⟨slot, generation, number⟩ := readBody_read h gen (show k + 1 < 256 by omega)
  refine read_ok (refusal := readTinRefusal p [byte h.slot.val, byte h.gen, byte (k + 1)]) ht rfl rfl ?_ content
  rw [readTinRefusal_eq, readRefusal_own rfl (by rw [number]; exact decide_eq_false (by omega)) job own slot generation
    valid, number]
  exact refuseIf_of_not (decide_eq_false (by omega)) _

end

/-! ### The contents -/

/-- A handle and a part read back from a READ-JOB name the job's head or one of its components (R79, R181). -/
theorem readJobContent_head {s : State} {h : Handle} {j : Job} (job : s.job? h = some j) (gen : h.gen ≤ 255) :
    readJobContent [byte h.slot.val, byte h.gen, byte 0] s = jobPart0 s h j := by
  obtain ⟨slot, generation, number⟩ := readBody_read h gen (show 0 < 256 by omega)
  simp only [readJobContent, handleOf_eq slot generation, job, number, if_true]

theorem readJobContent_part {s : State} {h : Handle} {j : Job} {k : Nat} {c : Component} (job : s.job? h = some j)
    (gen : h.gen ≤ 255) (few : k < 6) (part : j.comps[k]? = some c) :
    readJobContent [byte h.slot.val, byte h.gen, byte (k + 1)] s = jobPart j (k + 1) c := by
  obtain ⟨slot, generation, number⟩ := readBody_read h gen (show k + 1 < 256 by omega)
  simp only [readJobContent, handleOf_eq slot generation, job, number]
  simp [part]

theorem readTinContent_entry {s : State} {h : Handle} {j : Job} {k : Nat} {e : TinResult} (job : s.job? h = some j)
    (gen : h.gen ≤ 255) (few : k < 99) (entry : j.results[k]? = some e) :
    readTinContent [byte h.slot.val, byte h.gen, byte (k + 1)] s = tinEntry s h j e := by
  obtain ⟨slot, generation, number⟩ := readBody_read h gen (show k + 1 < 256 by omega)
  simp only [readTinContent, handleOf_eq slot generation, job, number]
  simp [entry]

/-! ### READ-CANISTER and STATUS -/

section
variable {s : State} {p : Port} {tag : Byte}

/-- What STATUS reads is not what a frame taken changes. -/
theorem lineStatus_popHold (s : State) (p : Port) : lineStatus (s.popHold p) p = lineStatus s p := by
  have port : (s.popHold p).port p = { s.port p with hold := (s.port p).hold.tail } := port_setPort_same s p _
  unfold lineStatus
  rw [port]
  rfl

/-- READ-CANISTER (R32, R40). -/
theorem readCanister_refused {body : Bytes} (ht : s.Takes p .readCanister tag body) {r : Nak}
    (hr : readCanisterRefusal body s = some r) :
    exec (.readCanister p tag body) s = .next (s.replied p .readCanister tag r.bytes) :=
  read_refused (refusal := readCanisterRefusal body) (content := fun s => canisterSummary s (bodyPos body)) ht rfl rfl
    hr rfl

theorem readCanister_ok {q : Pos} (ht : s.Takes p .readCanister tag [byte q.val]) :
    exec (.readCanister p tag [byte q.val]) s =
      .next (s.replied p .readCanister tag ([0, 0, 0] ++ canisterSummary s q)) := by
  have position := u8_position q []
  refine read_ok (refusal := readCanisterRefusal [byte q.val])
    (content := fun s => canisterSummary s (bodyPos [byte q.val])) ht rfl rfl ?_ ?_
  · rw [readCanisterRefusal, posCheck_pass position]; rfl
  · rw [bodyPos_eq position]; rfl

/-- STATUS (R32, R173). -/
theorem status_refused {body : Bytes} (ht : s.Takes p .status tag body) (length : body ≠ []) :
    exec (.status p tag body) s = .next (s.replied p .status tag [0x02, 0, 0]) := by
  refine read_refused (refusal := emptyBodyRefusal body) (content := fun s => lineStatus s p) (r := nak .format) ht rfl
    rfl ?_ rfl
  simp [emptyBodyRefusal, length]

theorem status_ok (ht : s.Takes p .status tag []) :
    exec (.status p tag []) s = .next (s.replied p .status tag ([0, 0, 0] ++ lineStatus s p)) :=
  read_ok (refusal := emptyBodyRefusal []) (content := fun s => lineStatus s p) ht rfl rfl rfl (lineStatus_popHold s p)

end

/-! ### The statement -/

/-- Settles O31: each row's refusals are one list of checks over READ-JOB and READ-TIN, and each content is read from
the state with the request's frame gone, which none of the records shows. -/
theorem readingRequestsChangeNothing : Obligations.ReadingRequestsChangeNothing := by
  unfold Obligations.ReadingRequestsChangeNothing
  intro s p tag
  refine ⟨fun body ht => reads_refused (wrong := fun i => 6 < i) _ (fun b ht r hr => readJob_refused ht hr) ht,
    fun body ht => reads_refused (wrong := fun i => i = 0) _ (fun b ht r hr => readTin_refused ht hr) ht,
    fun body ht => ⟨fun length => readCanister_refused ht (r := nak .format) ?_,
      fun length above => readCanister_refused ht (r := nakField .range 1) ?_⟩,
    fun body ht some => status_refused ht some, fun q ht => readCanister_ok ht, status_ok,
    fun h j job valid gen own => ⟨fun ht => ?_, fun k c few part ht => ?_, fun k e tin few entry ht => ?_⟩⟩
  · simp [readCanisterRefusal, length]
  · simp [readCanisterRefusal, length, posCheck_above above]
  · exact readJob_ok job valid gen own (Nat.zero_le _) (Nat.zero_le _) ht (readJobContent_head job gen)
  · obtain ⟨inside, _⟩ := List.getElem?_eq_some_iff.1 part
    exact readJob_ok job valid gen own few inside ht (readJobContent_part job gen few part)
  · exact readTin_ok job valid gen own tin few ht (readTinContent_entry job gen (by omega) entry)

end Sys2Proof.Reading
end

section
/-! What a walk and an examination of a demand leave of the dispense head (R49, R25): the station and its tin, the
channels, the captures, the lidder, and whether the line is HALTED. -/

namespace Sys2Proof.Bursts

open Sys2Proof Sys2Proof.Machine

/-- What the end of a burst reads and writes of the state beside the stock. -/
structure Head where
  tin : Option TinCtx
  channels : Vector Channel 4
  station : StationState
  halted : Bool
  capture : Capture
  scaleTimer : Timer
  settings : Settings
  lidder : Lidder

def head (s : State) : Head :=
  ⟨s.tin, s.channels, s.station, s.halted, s.capture, s.scaleTimer, s.line.settings, s.lidder⟩

theorem chan_of_head {s t : State} (h : head t = head s) (d : ChanId) : t.chan d = s.chan d :=
  congrArg (fun x : Head => x.channels[d]) h

variable (s : State)

theorem head_notify (p : Port) (n : Notice) : head (s.notify p n) = head s := rfl

theorem head_notifyEach (l : List Port) (n : Notice) : head (s.notifyEach l n) = head s := by
  unfold State.notifyEach
  induction l generalizing s with
  | nil => rfl
  | cons p l ih => exact (ih _).trans (head_notify s p n)

theorem head_notifyJob (h : Handle) (c : Cause) : head (s.notifyJob h c) = head s := by
  unfold State.notifyJob; split <;> rfl

theorem head_modJob (h : Handle) (f : Job → Job) : head (s.modJob h f) = head s := by
  unfold State.modJob; split <;> rfl

theorem head_joinQueue (h : Handle) : head (s.joinQueue h) = head s := by
  unfold State.joinQueue; split <;> rfl

/-- A line that wakes was not HALTED before and is not HALTED after (R149). -/
theorem head_wake : head s.wake = head s := by
  unfold State.wake
  split
  · next asleep =>
    have running : s.halted = false := by
      rcases Bool.or_eq_true_iff.1 asleep with m | m <;> simp [State.halted, beq_iff_eq.1 m]
    exact (head_notifyEach _ _ _).trans (by simp only [head, running]; rfl)
  · rfl

theorem head_grant (p : Pos) (h : Handle) : head (s.grant p h) = head s :=
  ((head_notifyJob _ _ _).trans (head_joinQueue _ _)).trans (head_modJob s h _)

theorem head_walkFrom (p : Pos) (l : List Handle) (woke : Bool) : head (State.walkFrom p l woke s).1 = head s := by
  induction l generalizing woke s with
  | nil => rfl
  | cons h rest ih =>
    unfold State.walkFrom
    split
    · rfl
    · split
      · rfl
      · split
        · exact (ih _ _).trans (head_grant s p h)
        · exact ih _ _

theorem head_walk (p : Pos) : head (s.walk p) = head s := by
  have wakes (u : State) (woke : Bool) : head (u.wakeIf woke) = head u := by
    cases woke
    · rfl
    · exact head_wake u
  exact (wakes _ _).trans (head_walkFrom s p _ _)

theorem head_examineRecirc (p : Pos) : head (s.examineRecirc p) = head s := by
  unfold State.examineRecirc
  dsimp only
  split <;> rfl

end Sys2Proof.Bursts
end

section
/-! The stock side of a burst report (R30, R52, R55, R108): the debit, the reservation and the demand, in the order of
the statement O52. -/

namespace Sys2Proof.Bursts

open Sys2Proof Sys2Proof.Machine Sys2Proof.Kept Sys2Proof.Requests

/-! ### The debit -/

/-- Usable volume after `n` steps is at or below the low mark of a canister with an armed latch (R31). -/
def reportsLow (x : Canister) (n : Nat) : Bool :=
  x.latch && decide (x.kept.level - n * x.kept.q - x.kept.heel ≤ x.kept.lowMark)

/-- A canister after `n` steps (R30, R31). -/
def drawn (x : Canister) (n : Nat) : Canister :=
  { x with
    kept := { x.kept with level := x.kept.level - n * x.kept.q, count := (x.kept.count + 1) % 65536 }
    latch := x.latch && !reportsLow x n
    state := if x.state = .ready ∨ x.state = .stirring then .ready else x.state
    stirrer := if x.state = .stirring then false else x.stirrer
    settleTimer := if x.state = .ready ∨ x.state = .stirring then some (x.kept.settleLimit * 60000) else x.settleTimer
    keepTimer := if x.state = .stirring then none else x.keepTimer }

/-- The state after `n` steps of the canister `x` at `p`. -/
def drawnAt (u : State) (p : Pos) (x : Canister) (n : Nat) : State :=
  if n = 0 then u
  else if reportsLow x n then
    (u.putCan p (drawn x n)).notify .w (.canisterLow p (x.kept.level - n * x.kept.q - x.kept.heel))
  else u.putCan p (drawn x n)

/-- A canister with its level and count debited, before its latch, state and timers follow (R30). -/
def lowered (x : Canister) (n : Nat) : Canister := { x with kept := debited x.kept n }

/-- A position whose canister takes the state and timers that follow a debit (R30). -/
def settleAgain (u : State) (p : Pos) : State := u.setCan p (u.can p).afterDebit

theorem afterDebit_lowered (x : Canister) (n : Nat) {latch : Bool} (h : latch = (x.latch && !reportsLow x n)) :
    Canister.afterDebit { lowered x n with latch := latch } = drawn x n := by
  subst h
  unfold Canister.afterDebit drawn lowered
  cases x.state <;> rfl

theorem settleAgain_putCan (u : State) (p : Pos) (c : Canister) :
    settleAgain (u.putCan p c) p = u.putCan p c.afterDebit := by
  rw [settleAgain, can_putCan, setCan_putCan u p (afterDebit_kept c)]

theorem settleAgain_notify (u : State) (p : Pos) (q : Port) (x : Notice) :
    settleAgain (u.notify q x) p = (settleAgain u p).notify q x := rfl

/-- The examination of a latch after a debit (R31). -/
theorem examineLow_lowered (u : State) (p : Pos) (x : Canister) (n : Nat) :
    settleAgain ((u.putCan p (lowered x n)).examineLow p) p =
      if reportsLow x n then
        (u.putCan p (drawn x n)).notify .w (.canisterLow p (x.kept.level - n * x.kept.q - x.kept.heel))
      else u.putCan p (drawn x n) := by
  have here : (u.putCan p (lowered x n)).can p = lowered x n := can_putCan u p _
  cases lows : reportsLow x n with
  | true =>
    obtain ⟨latch, low⟩ := Bool.and_eq_true_iff.1 lows
    rw [examineLow_disarms (by rw [here]; exact latch) (by rw [here]; exact of_decide_eq_true low), here,
      setCan_putCan u p (c := lowered x n) (d := { lowered x n with latch := false }) rfl, settleAgain_notify,
      settleAgain_putCan, afterDebit_lowered x n (by simp [lows])]
    rfl
  | false =>
    have high : x.latch = false ∨ (lowered x n).kept.lowMark < (lowered x n).kept.usable := by
      rcases Bool.and_eq_false_iff.1 lows with h | h
      · exact .inl h
      · exact .inr (Nat.not_le.1 (of_decide_eq_false h))
    have follows : (lowered x n).afterDebit = drawn x n := afterDebit_lowered x n (by simp [lows])
    rw [examineLow_leaves (by rw [here]; exact high), settleAgain_putCan, follows]
    rfl

theorem debit_eq (u : State) (p : Pos) (n : Nat) : u.debit p n = drawnAt u p (u.can p) n := by
  unfold State.debit drawnAt
  refine if_congr Iff.rfl rfl ?_
  rw [← examineLow_lowered, ← setCan_storeCan]
  rfl

/-- The debit does not read the job table. -/
theorem drawnAt_putJob (u : State) (p : Pos) (x : Canister) (n : Nat) (h : Handle) (j : Job) :
    drawnAt (u.putJob h j) p x n = (drawnAt u p x n).putJob h j := by
  unfold drawnAt
  split
  · rfl
  · split <;> rfl

theorem head_drawnAt (u : State) (p : Pos) (x : Canister) (n : Nat) : head (drawnAt u p x n) = head u := by
  unfold drawnAt
  split
  · rfl
  · split <;> rfl

theorem job?_drawnAt (u : State) (p : Pos) (x : Canister) (n : Nat) (h : Handle) :
    (drawnAt u p x n).job? h = u.job? h := by
  unfold drawnAt
  split
  · rfl
  · split <;> rfl

/-- A debit leaves what a canister is set to dispense with (R30). -/
theorem settings_drawnAt (u : State) (p : Pos) (n : Nat) :
    ((drawnAt u p (u.can p) n).can p).kept.pulse = (u.can p).kept.pulse ∧
      ((drawnAt u p (u.can p) n).can p).kept.dwell = (u.can p).kept.dwell := by
  unfold drawnAt
  split
  · exact ⟨rfl, rfl⟩
  · split
    · rw [State.notify, can_setPort, can_putCan]; exact ⟨rfl, rfl⟩
    · rw [can_putCan]; exact ⟨rfl, rfl⟩

/-! ### The reservation -/

/-- The steps kept for component `i` (R55). -/
def keptFor (j : Job) (i : Nat) : Nat := (j.comps[i]?.map fun y : Component => y.reserved).getD 0

/-- A job that is CANCELLING or CANCELLED (R55). -/
abbrev Gone (j : Job) : Prop := j.state = .cancelling ∨ j.state = .cancelled

/-- A job after a report of `n` steps of its component `i` (R52, R55). -/
def released (j : Job) (i n : Nat) : Job :=
  { j with comps := j.comps.modify i fun y => { y with reserved := if Gone j then 0 else y.reserved - n } }

theorem isCancelled_iff (j : Job) : j.isCancelled = true ↔ Gone j := by simp [Job.isCancelled, Gone]

/-- A rewritten entry of a list depends only on what the function makes of that entry. -/
theorem setReserved_eq (j : Job) (i n : Nat) :
    j.setReserved i (j.reservedAt i - n) =
      { j with comps := j.comps.modify i fun y => { y with reserved := y.reserved - n } } := by
  unfold Job.setReserved Job.reservedAt
  congr 1
  refine List.ext_getElem? fun k => ?_
  rw [List.getElem?_modify, List.getElem?_modify]
  by_cases same : i = k
  · subst same
    cases j.comps[i]? <;> simp
  · simp [same]

theorem reserveReport_eq {u : State} {h : Handle} {j : Job} (job : u.job? h = some j) (i : Nat) (p : Pos) (n : Nat) :
    u.reserveReport h i p n =
      if Gone j ∧ n < keptFor j i then (u.putJob h (released j i n)).walk p else u.putJob h (released j i n) := by
  have puts (f : Job → Job) : u.modJob h f = u.putJob h (f j) := by rw [State.modJob, job]; rfl
  unfold State.reserveReport
  rw [job]
  dsimp only
  rw [puts, puts]
  by_cases gone : Gone j
  · have all : released j i n = j.setReserved i 0 := by simp [released, Job.setReserved, gone]
    rw [if_pos ((isCancelled_iff j).2 gone), all]
    exact if_congr (by simp only [gone, true_and]; exact Nat.sub_pos_iff_lt) rfl rfl
  · have some : released j i n = j.setReserved i (j.reservedAt i - n) := by simp [released, setReserved_eq, gone]
    rw [if_neg (mt (isCancelled_iff j).1 gone), if_neg fun h => gone h.1, some]

/-! ### The report -/

section
variable (s : State) (d : ChanId) (n : Nat) (t : TinCtx) (j : Job)

/-- The channel after its burst (R108). -/
def leftOf : Channel := { s.chan d with remaining := (s.chan d).remaining - n, burst := none }

/-- The station tin after a burst (R108). -/
def filled : TinCtx := { t with dispensed := t.dispensed.modify (s.chan d).comp (· + n) }

/-- The state with the steps taken by pump, channel and tin (R108). -/
def begun : State :=
  { (s.setPump (s.chan d).pos { charge := (s.pump (s.chan d).pos).charge - n, state := .idle }).setChan d
      (leftOf s d n) with
    tin := some (filled s d n t) }

/-- The state with the steps taken from the reservation and the canister too (R30, R52). -/
def stocked : State :=
  drawnAt ((begun s d n t).putJob t.handle (released j (s.chan d).comp n)) (s.chan d).pos (s.can (s.chan d).pos) n

/-- The state after a report, before the channel goes on (R25, R55). -/
def reported : State :=
  State.examineRecirc (if Gone j ∧ n < keptFor j (s.chan d).comp then (stocked s d n t j).walk (s.chan d).pos
    else stocked s d n t j) (s.chan d).pos

variable {s d n t j}

theorem burstReport_eq (tin : s.tin = some t) (job : s.job? t.handle = some j) :
    s.burstReport d n = (reported s d n t j).channelNext d := by
  have taken : ((s.setPump (s.chan d).pos { charge := (s.pump (s.chan d).pos).charge - n, state := .idle }).setChan d
      { s.chan d with remaining := (s.chan d).remaining - n, burst := none }).modTin
        (fun t => { t with dispensed := t.dispensed.modify (s.chan d).comp (· + n) }) = begun s d n t := by
    simp only [State.modTin, setChan_tin, setPump_tin, tin]; rfl
  have debits : (begun s d n t).debit (s.chan d).pos n =
      drawnAt (begun s d n t) (s.chan d).pos (s.can (s.chan d).pos) n := debit_eq _ _ _
  have holds : (drawnAt (begun s d n t) (s.chan d).pos (s.can (s.chan d).pos) n).tin = some (filled s d n t) :=
    congrArg Head.tin (head_drawnAt _ _ _ _)
  have named : (drawnAt (begun s d n t) (s.chan d).pos (s.can (s.chan d).pos) n).job?
      (filled s d n t).handle = some j :=
    (job?_drawnAt _ _ _ _ _).trans job
  unfold State.burstReport
  dsimp only
  rw [taken, debits, holds]
  dsimp only
  rw [reserveReport_eq named, reported, stocked, drawnAt_putJob]
  rfl

theorem head_reported : head (reported s d n t j) = head (begun s d n t) := by
  have walks : head (stocked s d n t j) = head (begun s d n t) := head_drawnAt _ _ _ _
  unfold reported
  rw [head_examineRecirc]
  split
  · exact (head_walk _ _).trans walks
  · exact walks

/-- What the canister dispenses with next is as it was. -/
theorem settings_reported :
    ((reported s d n t j).can (s.chan d).pos).kept.pulse = (s.can (s.chan d).pos).kept.pulse ∧
      ((reported s d n t j).can (s.chan d).pos).kept.dwell = (s.can (s.chan d).pos).kept.dwell := by
  have same : kepts (reported s d n t j) = kepts (stocked s d n t j) := by
    unfold reported
    rw [kepts_examineRecirc]
    split
    · exact kepts_walk _ _
    · rfl
  rw [kept_congr same]
  exact settings_drawnAt ((begun s d n t).putJob t.handle (released j (s.chan d).comp n)) (s.chan d).pos n

end

end Sys2Proof.Bursts
end

section
/-! How a channel goes on after its burst (R108 to R110), under each dispensing stop (R113, R115), and the statement
O52. -/

namespace Sys2Proof.Bursts

open Sys2Proof Sys2Proof.Machine Sys2Proof.Timers Sys2Proof.Kept

/-! ### The channel of a report -/

theorem allChans_eq : allChans = List.finRange 4 := by decide

/-- The first channel that meets a condition (R101). -/
theorem findChan_first {s : State} {f : Channel → Bool} {d : ChanId} (here : f (s.chan d) = true)
    (before : ∀ e, e < d → f (s.chan e) = false) : s.findChan f = some d := by
  rw [State.findChan, allChans_eq, List.find?_eq_some_iff_getElem]
  refine ⟨here, d.val, by simp, by simp, fun k hk => ?_⟩
  simp [before ⟨k, by omega⟩ hk]

theorem takeBurst_eq {s : State} {p : Pos} {d : ChanId} {size : Nat} (burst : (s.chan d).state = .burst)
    (pos : (s.chan d).pos = p) (holds : (s.chan d).burst = some size)
    (before : ∀ e, e < d → ¬ ((s.chan e).state = .burst ∧ (s.chan e).pos = p)) (steps : Nat) :
    s.takeBurst p steps = s.burstReport d (min steps size) := by
  have found : s.findChan (fun c => c.state == .burst && c.pos == p) = some d :=
    findChan_first (by simp [burst, pos]) fun e he => by simpa using before e he
  rw [State.takeBurst, found]
  dsimp only
  rw [holds]
  rfl

/-! ### Channels at work -/

theorem exists_chan {f : ChanId → Bool} : allChans.any f = true ↔ ∃ k, f k = true := by
  simp [allChans_eq]

theorem working_iff (x : ChanState) : x.working = true ↔ x ∈ [ChanState.waitRecirc, .waitCharge, .burst, .dwell] := by
  cases x <;> decide

section
variable {u : State} {d : ChanId} {t : TinCtx} {c : Channel}

/-- With one channel out of its burst, whether a channel is at work is a matter of the others. -/
theorem anyWorking_setChan (h : c.state.working = false) :
    (u.setChan d c).anyWorking = true ↔
      ∃ k, k ≠ d ∧ (u.chan k).state ∈ [ChanState.waitRecirc, .waitCharge, .burst, .dwell] := by
  rw [State.anyWorking, exists_chan]
  refine exists_congr fun k => ?_
  rw [← working_iff, chan_setChan]
  by_cases same : d = k
  · simp [same, h]
  · simp [same, Ne.symm same]

theorem anyBurst_setChan (h : c.state ≠ .burst) :
    (u.setChan d c).anyBurst = true ↔ ∃ k, k ≠ d ∧ (u.chan k).state = .burst := by
  rw [State.anyBurst, exists_chan]
  refine exists_congr fun k => ?_
  rw [chan_setChan, beq_iff_eq]
  by_cases same : d = k
  · simp [same, h]
  · simp [same, Ne.symm same]

/-! ### No stop -/

/-- A channel with no step left takes the next component or ends the dispensing (R110); with one left it dwells or
starts again (R108, R109). -/
theorem channelNext_none (tin : u.tin = some t) (stop : t.stop = .none) : u.channelNext d =
    if (u.chan d).remaining = 0 then ((u.setChan d { u.chan d with state := .done }).assignTo d).endDispensing
    else if (u.can (u.chan d).pos).kept.pulse = 0 then u.startCheck d
    else u.setChan d { u.chan d with state := .dwell, dwellTimer := some (u.can (u.chan d).pos).kept.dwell } := by
  unfold State.channelNext
  rw [tin]
  dsimp only
  rw [stop]
  exact if_congr Iff.rfl rfl (ite_not _ _ _)

/-! ### The stop CANCEL -/

theorem channelNext_cancel (tin : u.tin = some t) (stop : t.stop = .cancel) :
    u.channelNext d = (u.setChan d { u.chan d with state := .done }).endDispensing := by
  unfold State.channelNext
  rw [tin]
  dsimp only
  rw [stop]
  rfl

theorem endDispensing_busy (busy : u.anyWorking = true) : u.endDispensing = u := by
  unfold State.endDispensing
  split
  · rfl
  · rw [busy]; simp

/-- A REJECT tin enters HANDOFF and claims the lidder, which is then examined (R112, R137). -/
theorem handoffReject_eq (tin : u.tin = some t) (fresh : Source.station ∉ u.lidder.claims) :
    u.handoffReject = State.examineLidder { u with
      station := .handoff, tin := some { t with stage := .lidWait }
      lidder := { u.lidder with claims := u.lidder.claims ++ [Source.station] } } := by
  simp [State.handoffReject, State.joinClaim, State.modTin, tin, fresh]

/-- A cancelled tin with no channel at work goes to HANDOFF (R113). -/
theorem endDispensing_cancelled (tin : u.tin = some t) (stop : t.stop = .cancel) (route : t.route = .reject)
    (station : u.station = .dispensing) (rest : u.anyWorking = false) (fresh : Source.station ∉ u.lidder.claims) :
    u.endDispensing = State.examineLidder { u with
      channels := Vector.replicate 4 Channel.free, station := .handoff, tin := some { t with stage := .lidWait }
      lidder := { u.lidder with claims := u.lidder.claims ++ [Source.station] } } := by
  have ends : u.endDispensing = u.freeChans.handoffReject := by
    unfold State.endDispensing
    rw [tin]
    dsimp only
    rw [if_pos (by simp [station, stop, rest]), route]
  exact ends.trans (handoffReject_eq (u := u.freeChans) tin fresh)

/-! ### The stop GUARD -/

theorem channelNext_guard (tin : u.tin = some t) (stop : t.stop = .guard) :
    u.channelNext d = (u.setChan d Channel.free).settleGuard := by
  unfold State.channelNext
  rw [tin]
  dsimp only
  rw [stop]

theorem settleGuard_busy (busy : u.anyBurst = true) : u.settleGuard = u := by
  unfold State.settleGuard
  split
  · rfl
  · rw [busy]; simp

theorem settleGuard_last (tin : u.tin = some t) (stop : t.stop = .guard) (last : u.anyBurst = false) :
    u.settleGuard = if 0 < t.dispensed.sum then u.spoilTin t else u.keepTin := by
  unfold State.settleGuard
  rw [tin]
  dsimp only
  rw [stop, last]
  rfl

theorem keepTin_eq (tin : u.tin = some t) : u.keepTin = { u with
    channels := Vector.replicate 4 Channel.free, station := .taring
    tin := some { t with stage := .taring, stop := .none, tare := none, gross := none, net := none }
    capture := if u.halted then u.capture else .tare
    scaleTimer := if u.halted then u.scaleTimer else some u.line.settings.scaleSettle } := by
  unfold State.keepTin
  cases u.halted <;> simp [State.modTin, tin, State.freeChans, State.startTare]

theorem spoilTin_eq (tin : u.tin = some t) (fresh : Source.station ∉ u.lidder.claims) :
    u.spoilTin t = (State.examineLidder { u with
      channels := Vector.replicate 4 Channel.free, station := .handoff
      tin := some { t with route := .reject, word := some .spoiled, stop := .none, stage := .lidWait }
      lidder := { u.lidder with claims := u.lidder.claims ++ [Source.station] } }).spoilAttempt t := by
  have turned : (u.freeChans.modTin fun t => { t with route := .reject, word := some .spoiled, stop := .none }).tin =
      some { t with route := .reject, word := some .spoiled, stop := .none } := congrArg (Option.map _) tin
  rw [State.spoilTin, handoffReject_eq turned fresh]
  rfl

end

/-! ### The statement -/

/-- The two burst reports run the channel on from the reported state and end with a selection (R85, R100, R108). -/
theorem reports_run {s : State} {p : Pos} {d : ChanId} {n steps : Nat} {v : State} (on : s.power = .on)
    (pump : (s.pump p).state = .burst) (takes : s.takeBurst p steps = s.burstReport d n)
    (ends : s.burstReport d n = v) :
    exec (.burstDone p steps) s = .next (v.selectAfter s) ∧ exec (.haltReport p steps) s = .next (v.selectAfter s) := by
  have burstDone : s.burstDone p steps = v.selectAfter s := by rw [State.burstDone, pump, ← ends, ← takes]
  have haltReport : s.haltReport p steps = v.selectAfter s := by rw [State.haltReport, pump, ← ends, ← takes]
  exact ⟨congrArg _ ((whenActive_on on _).trans burstDone), congrArg _ ((whenActive_on on _).trans haltReport)⟩

/-- Settles O52: the report up to the channel's next state is `reported`, which leaves the head as `begun` sets it; each
stop then decides how the channel goes on. -/
theorem burstReportsDebitTheCanister : Obligations.BurstReportsDebitTheCanister := by
  intro s p steps size d t j on pump burst pos holds first tin job
  subst pos
  intro n c x level lows fit gone keptSteps left tin' a b e runs free
  have same : head e = head (begun s d n t) := head_reported
  have run {v : State} (h : e.channelNext d = v) : runs v :=
    reports_run on pump (takeBurst_eq burst rfl holds first steps) ((burstReport_eq tin job).trans h)
  have here : e.chan d = left := (chan_of_head same d).trans (chan_setChan_same _ d left)
  have others {k : ChanId} (h : k ≠ d) : e.chan k = s.chan k :=
    (chan_of_head same k).trans ((chan_setChan _ d k left).trans (if_neg h.symm))
  have tinE : e.tin = some tin' := congrArg Head.tin same
  have lidder : e.lidder = s.lidder := congrArg Head.lidder same
  obtain ⟨pulse, dwell⟩ : (e.can left.pos).kept.pulse = x.kept.pulse ∧ (e.can left.pos).kept.dwell = x.kept.dwell :=
    settings_reported
  have settles (stop : t.stop = .guard) (last : ∀ k, k ≠ d → (s.chan k).state ≠ .burst) : e.channelNext d =
      if 0 < tin'.dispensed.sum then (e.setChan d Channel.free).spoilTin tin'
      else (e.setChan d Channel.free).keepTin := by
    have calm : (e.setChan d Channel.free).anyBurst = false := by
      rw [← Bool.not_eq_true, anyBurst_setChan (by decide)]
      exact fun ⟨k, other, burst⟩ => last k other (by rw [← others other]; exact burst)
    rw [channelNext_guard tinE stop, settleGuard_last (u := e.setChan d Channel.free) tinE stop calm]
  refine ⟨fun stop => run ?_, fun stop station route => ⟨fun busy => run ?_, fun idle fresh => run ?_⟩,
    fun stop => ⟨fun bursts => run ?_, fun last => ⟨fun none => run ?_, fun some fresh => run ?_⟩⟩⟩
  · rw [channelNext_none tinE stop, here, pulse, dwell]
    exact if_congr Nat.sub_eq_zero_iff_le rfl rfl
  · rw [channelNext_cancel tinE stop, here]
    refine endDispensing_busy ((anyWorking_setChan rfl).2 ?_)
    obtain ⟨k, other, works⟩ := busy
    exact ⟨k, other, by rw [others other]; exact works⟩
  · rw [channelNext_cancel tinE stop, here]
    have rest : (e.setChan d { left with state := .done }).anyWorking = false := by
      rw [← Bool.not_eq_true, anyWorking_setChan rfl]
      exact fun ⟨k, other, works⟩ => idle k ⟨other, by rw [← others other]; exact works⟩
    rw [endDispensing_cancelled (u := e.setChan d { left with state := .done }) tinE stop route
      ((congrArg Head.station same).trans station) rest (by rw [setChan_lidder, lidder]; exact fresh), setChan_lidder,
      lidder]
  · rw [channelNext_guard tinE stop]
    refine settleGuard_busy ((anyBurst_setChan (by decide)).2 ?_)
    obtain ⟨k, other, burst⟩ := bursts
    exact ⟨k, other, by rw [others other]; exact burst⟩
  · have halted : (e.setChan d Channel.free).halted = s.halted := congrArg Head.halted same
    have capture : (e.setChan d Channel.free).capture = s.capture := congrArg Head.capture same
    have timer : (e.setChan d Channel.free).scaleTimer = s.scaleTimer := congrArg Head.scaleTimer same
    have settings : (e.setChan d Channel.free).line.settings = s.line.settings := congrArg Head.settings same
    have mode {α : Type} (y z : α) : (if s.halted then y else z) = if s.line.mode = .halted then y else z :=
      if_congr beq_iff_eq rfl rfl
    rw [settles stop last, if_neg (by omega), keepTin_eq (u := e.setChan d Channel.free) tinE, halted, capture, timer,
      settings, mode, mode]
    rfl
  · rw [settles stop last, if_pos some, spoilTin_eq (u := e.setChan d Channel.free) tinE
      (by rw [setChan_lidder, lidder]; exact fresh), setChan_lidder, lidder]
    rfl

end Sys2Proof.Bursts
end

section
/-! The rules of the reservation unit (R43, R50, R83, R88): when a need is short, what a reservation adds, how the queue
and a job's record change, and that a record with the same components reserves the same volume. -/

namespace Sys2Proof.Stock

open Sys2Proof Sys2Proof.Machine Sys2Proof.Submit

variable {s : State} {h : Handle} {j : Job}

/-! ### Short needs -/

/-- A need, with its component, that finds its canister's free volume too small (R46, R50). -/
def Short (s : State) (x : Nat × Component) : Prop :=
  0 < x.1 ∧ s.freeVol x.2.pos < x.1 * (s.can x.2.pos).kept.q

theorem shortAt_iff (x : Nat × Component) : s.shortAt x.2.pos x.1 = true ↔ Short s x := by
  rw [State.shortAt, Bool.and_eq_true, decide_eq_true_iff, decide_eq_true_iff]
  rfl

theorem firstShort_eq_find (ns : List Nat) (cs : List Component) :
    s.firstShort ns cs =
      ((ns.zip cs).find? fun x => s.shortAt x.2.pos x.1).map fun x => (x.2.pos, x.1) := by
  induction ns generalizing cs with
  | nil => rfl
  | cons n ns ih =>
    cases cs with
    | nil => rfl
    | cons c cs =>
      rw [State.firstShort, List.zip_cons_cons, List.find?_cons]
      cases s.shortAt c.pos n with
      | true => rfl
      | false => exact ih cs

theorem firstShort_none {ns : List Nat} {cs : List Component} (fits : ∀ x ∈ ns.zip cs, ¬ Short s x) :
    s.firstShort ns cs = none := by
  have found := List.find?_eq_none.2 fun x hx => mt (shortAt_iff x).1 (fits x hx)
  rw [firstShort_eq_find, found]
  rfl

theorem firstShort_first {ns : List Nat} {cs : List Component} {pre post : List (Nat × Component)} {n : Nat}
    {c : Component} (split : ns.zip cs = pre ++ (n, c) :: post) (fits : ∀ x ∈ pre, ¬ Short s x)
    (short : Short s (n, c)) : s.firstShort ns cs = some (c.pos, n) := by
  have found : (ns.zip cs).find? (fun x => s.shortAt x.2.pos x.1) = some (n, c) :=
    List.find?_eq_some_iff_append.2 ⟨(shortAt_iff (n, c)).2 short, pre, post, split, fun x hx => by
      simpa using mt (shortAt_iff x).1 (fits x hx)⟩
  rw [firstShort_eq_find, found]
  rfl

/-- No component on a position means no need there. -/
theorem needOn_absent {p : Pos} {cs : List Component} (absent : ∀ c ∈ cs, c.pos ≠ p) (ns : List Nat) :
    needOn p ns cs = 0 := by
  induction cs generalizing ns with
  | nil => cases ns <;> rfl
  | cons c cs ih =>
    cases ns with
    | nil => rfl
    | cons n ns =>
      rw [needOn, if_neg (absent c List.mem_cons_self)]
      exact ih (fun d hd => absent d (List.mem_cons_of_mem _ hd)) ns

/-- The need on a position is short exactly where that of its one component is (R50). -/
theorem shortAt_needOn (p : Pos) {cs : List Component} (nodup : (cs.map fun c => c.pos).Nodup) (ns : List Nat) :
    s.shortAt p (needOn p ns cs) = true ↔ ∃ x ∈ ns.zip cs, x.2.pos = p ∧ Short s x := by
  induction cs generalizing ns with
  | nil => cases ns <;> simp [needOn, State.shortAt]
  | cons c cs ih =>
    obtain ⟨fresh, nodup⟩ := List.nodup_cons.1 nodup
    cases ns with
    | nil => simp [needOn, State.shortAt]
    | cons n ns =>
      rw [needOn, List.zip_cons_cons, List.exists_mem_cons_iff]
      split
      · next here =>
        have behind : ¬ ∃ x ∈ ns.zip cs, x.2.pos = p ∧ Short s x := by
          rintro ⟨x, hx, there, -⟩
          exact fresh (List.mem_map.2 ⟨x.2, (List.of_mem_zip hx).2, there.trans here.symm⟩)
        rw [← here] at behind ⊢
        rw [or_iff_left behind, shortAt_iff (n, c)]
        exact (and_iff_right rfl).symm
      · next other =>
        rw [ih nodup, or_iff_right fun h => other h.1]

/-! ### Reserving -/

/-- Components with step counts added to what they hold (R43). -/
def withReserved (ns : List Nat) (cs : List Component) : List Component :=
  ns.zipWith (fun (n : Nat) (c : Component) => { c with reserved := c.reserved + n }) cs

theorem addReserved_eq {ns : List Nat} {cs : List Component} (length : ns.length = cs.length) :
    addReserved ns cs = withReserved ns cs := by
  induction ns generalizing cs with
  | nil => rw [List.eq_nil_of_length_eq_zero length.symm]; rfl
  | cons n ns ih =>
    cases cs with
    | nil => cases length
    | cons c cs => exact congrArg _ (ih (Nat.succ.inj length))

theorem withReserved_zero {ns : List Nat} {cs : List Component} (length : ns.length = cs.length) (zero : ns.sum = 0) :
    withReserved ns cs = cs := by
  refine List.ext_getElem (by simp [withReserved, length]) fun i hi _ => ?_
  have none : ns[i]'(by simp [withReserved] at hi; omega) = 0 :=
    List.sum_eq_zero_iff_forall_eq_nat.1 zero _ (List.getElem_mem _)
  simp [withReserved, none]

/-! ### The queue -/

theorem joinQueue_mem (mem : h ∈ s.queue) : s.joinQueue h = s := by
  simp [State.joinQueue, mem]

theorem joinQueue_fresh (fresh : h ∉ s.queue) :
    s.joinQueue h = { s with queue := s.queue ++ [h], quota := if s.queue = [] then 0 else s.quota } := by
  unfold State.joinQueue State.setQueue
  rw [if_neg (by simpa using fresh)]
  cases s.queue <;> simp

/-- Leaving keeps the front exactly where another handle, or none, stands there (R88). -/
theorem head?_filter_ne (l : List Handle) (h : Handle) :
    (l.filter (· != h)).head? = l.head? ↔ l.head? ≠ some h := by
  cases l with
  | nil => simp
  | cons x l =>
    by_cases front : x = h
    · subst front
      have gone : (l.filter (· != x)).head? ≠ some x := fun found => by
        simpa using List.mem_filter.1 (List.mem_of_head? found)
      simpa using gone
    · simp [front]

theorem leaveQueue_eq (s : State) (h : Handle) : s.leaveQueue h =
    { s with queue := s.queue.filter (· != h), quota := if s.queue.head? = some h then 0 else s.quota } := by
  unfold State.leaveQueue State.setQueue
  simp only [head?_filter_ne, ite_not]

/-! ### The job's record -/

theorem modJob_eq (job : s.job? h = some j) (f : Job → Job) : s.modJob h f = s.putJob h (f j) := by
  rw [State.modJob, job]
  rfl

theorem putJob_putJob (s : State) (h : Handle) (j k : Job) : (s.putJob h j).putJob h k = s.putJob h k := by
  simp [State.putJob, State.setSlot]

theorem putJob_joinQueue (s : State) (h g : Handle) (k : Job) :
    (s.joinQueue h).putJob g k = (s.putJob g k).joinQueue h := by
  unfold State.joinQueue
  rw [apply_ite (State.putJob · g k)]
  rfl

theorem job?_notifyEach (l : List Port) (n : Notice) (s : State) : (s.notifyEach l n).job? h = s.job? h := by
  unfold State.notifyEach
  induction l generalizing s with
  | nil => rfl
  | cons p l ih => exact ih _

theorem job?_examinePark (s : State) : s.examinePark.job? h = s.job? h := by
  unfold State.examinePark
  split
  · exact job?_notifyEach _ _ _
  · rfl

/-! ### What is reserved -/

/-- The reserved steps are those of the components in the slots (R44). -/
theorem reservedSteps_congr {t : State} (same : ∀ i, (t.slot i).job.map Job.comps = (s.slot i).job.map Job.comps)
    (p : Pos) : t.reservedSteps p = s.reservedSteps p := by
  have slots (u : State) : u.reservedSteps p = (allSlots.filterMap fun i => ((u.slot i).job.map Job.comps).map
      fun cs => (cs.map fun c => if c.pos = p then c.reserved else 0).sum).sum := by
    simp only [State.reservedSteps, State.jobs, List.map_filterMap, Option.map_map]
    rfl
  simp only [slots, same]

theorem freeVol_joinQueue (s : State) (h : Handle) (p : Pos) : (s.joinQueue h).freeVol p = s.freeVol p := by
  unfold State.joinQueue
  split <;> rfl

theorem freeVol_putJob (job : s.job? h = some j) {k : Job} (comps : k.comps = j.comps) (p : Pos) :
    (s.putJob h k).freeVol p = s.freeVol p := by
  have slots (i : Fin 24) : ((s.putJob h k).slot i).job.map Job.comps = (s.slot i).job.map Job.comps := by
    rw [State.putJob, slot_setSlot]
    split
    · next here => subst here; simp [job?_eq_some job, comps]
    · rfl
  have steps := reservedSteps_congr slots p
  unfold State.freeVol State.reservedVol
  rw [steps]
  rfl

theorem can_joinQueue (s : State) (h : Handle) (p : Pos) : (s.joinQueue h).can p = s.can p := by
  unfold State.joinQueue
  split <;> rfl

theorem waitList_joinQueue (s : State) (h : Handle) (p : Pos) : (s.joinQueue h).waitList p = s.waitList p := by
  unfold State.joinQueue
  split <;> rfl

end Sys2Proof.Stock
end

section
/-! Spoiled attempts (R53, R54, R68): the failed attempt, the try of its re-reservation, and the statement O46. -/

namespace Sys2Proof.Stock

open Sys2Proof Sys2Proof.Machine Sys2Proof.Submit

variable {s : State} {h : Handle} {j : Job}

/-! ### The failed attempt -/

/-- A job after a failed attempt, whose re-reservation is `pending` (R53, R68). -/
def failed (j : Job) (t : TinCtx) (pending : Option (List Nat)) : Job :=
  { j with
    started := j.started - 1, pendingRe := pending
    results := j.results.modify (t.index - 1) fun e : TinResult => { e with attempts := min 99 (e.attempts + 1) } }

/-- The state after a failed attempt. -/
def failedState (s : State) (j : Job) (t : TinCtx) (pending : Option (List Nat)) : State :=
  (s.putJob t.handle (failed j t pending)).joinQueue t.handle

theorem failAttempt_eq {t : TinCtx} (job : s.job? t.handle = some j) (live : j.isCancelled = false) :
    s.failAttempt t = failedState s j t (if t.dispensed.sum = 0 then none else some t.dispensed) := by
  have zero : t.dispensed.all (· == 0) = true ↔ t.dispensed.sum = 0 := by
    simp [List.sum_eq_zero_iff_forall_eq_nat]
  unfold State.failAttempt
  rw [job]
  dsimp only
  rw [live, if_neg Bool.false_ne_true, modJob_eq job]
  simp only [zero]
  rfl

theorem job?_failedState (t : TinCtx) (pending : Option (List Nat)) :
    (failedState s j t pending).job? t.handle = some (failed j t pending) :=
  (job?_joinQueue _ _ _).trans (job?_putJob _ _ _)

theorem putJob_failedState (t : TinCtx) (pending : Option (List Nat)) (k : Job) :
    (failedState s j t pending).putJob t.handle k = (s.putJob t.handle k).joinQueue t.handle := by
  rw [failedState, putJob_joinQueue, putJob_putJob]

/-- A failed attempt neither takes nor frees volume (R53). -/
theorem short_failedState {t : TinCtx} (job : s.job? t.handle = some j) (pending : Option (List Nat))
    (x : Nat × Component) : Short (failedState s j t pending) x ↔ Short s x := by
  have free : (failedState s j t pending).freeVol x.2.pos = s.freeVol x.2.pos :=
    (freeVol_joinQueue _ _ _).trans (freeVol_putJob (k := failed j t pending) job rfl _)
  have can : (failedState s j t pending).can x.2.pos = s.can x.2.pos := can_joinQueue _ _ _
  rw [Short, free, can, Short]

/-! ### The re-reservation -/

theorem retryReserve_nothing (job : s.job? h = some j) (pending : j.pendingRe = none) :
    s.retryReserve h = (s, none) := by
  rw [State.retryReserve, job]
  dsimp only
  rw [pending]

theorem retryReserve_taken {l : List Nat} (job : s.job? h = some j) (pending : j.pendingRe = some l)
    (length : l.length = j.comps.length) (fits : ∀ x ∈ l.zip j.comps, ¬ Short s x) :
    s.retryReserve h = (s.putJob h { j with comps := withReserved l j.comps, pendingRe := none }, none) := by
  rw [State.retryReserve, job]
  dsimp only
  rw [pending]
  dsimp only
  rw [firstShort_none fits, modJob_eq job, addReserved_eq length]

/-- A returned job that finds a canister short waits at the head of its list (R54). -/
theorem retryReserve_waits {l : List Nat} (job : s.job? h = some j) (pending : j.pendingRe = some l)
    {pre post : List (Nat × Component)} {n : Nat} {c : Component} (split : l.zip j.comps = pre ++ (n, c) :: post)
    (fits : ∀ x ∈ pre, ¬ Short s x) (short : Short s (n, c)) :
    s.retryReserve h =
      (((((s.putJob h { j with state := .waitingStock }).leaveQueue h).setWait c.pos (h :: s.waitList c.pos)).notify .w
        (.canisterWait c.pos h n (n * (s.can c.pos).kept.q))).examinePark, some c.pos) := by
  simp only [State.retryReserve, job, pending, firstShort_first split fits short, modJob_eq job]
  rfl

/-! ### The spoiled attempt -/

section
variable {t : TinCtx} (job : s.job? t.handle = some j) (live : j.isCancelled = false)
include job live

theorem spoilAttempt_nothing (zero : t.dispensed.sum = 0) : s.spoilAttempt t = failedState s j t none := by
  rw [State.spoilAttempt, failAttempt_eq job live, if_pos zero, retryReserve_nothing (job?_failedState t none) rfl]

theorem spoilAttempt_taken (length : t.dispensed.length = j.comps.length)
    (fits : ∀ x ∈ t.dispensed.zip j.comps, ¬ Short s x) :
    s.spoilAttempt t = (s.putJob t.handle
      { failed j t none with comps := withReserved t.dispensed j.comps }).joinQueue t.handle := by
  by_cases zero : t.dispensed.sum = 0
  · rw [spoilAttempt_nothing job live zero, withReserved_zero length zero]
    rfl
  · have stillFits : ∀ x ∈ t.dispensed.zip (failed j t (some t.dispensed)).comps,
        ¬ Short (failedState s j t (some t.dispensed)) x :=
      fun x hx => mt (short_failedState job _ x).1 (fits x hx)
    rw [State.spoilAttempt, failAttempt_eq job live, if_neg zero,
      retryReserve_taken (job?_failedState t _) rfl length stillFits]
    exact putJob_failedState t _ _

theorem spoilAttempt_waits {pre post : List (Nat × Component)} {n : Nat} {c : Component}
    (split : t.dispensed.zip j.comps = pre ++ (n, c) :: post) (fits : ∀ x ∈ pre, ¬ Short s x)
    (short : Short s (n, c)) :
    s.spoilAttempt t =
      ((((((s.putJob t.handle { failed j t (some t.dispensed) with state := .waitingStock }).joinQueue
        t.handle).leaveQueue t.handle).setWait c.pos (t.handle :: s.waitList c.pos)).notify .w
          (.canisterWait c.pos t.handle n (n * (s.can c.pos).kept.q))).examinePark).notify j.owner
            (.jobState t.handle .waitingStock .returnedWait) := by
  have nonzero : t.dispensed.sum ≠ 0 := fun zero => by
    have mem : (n, c) ∈ t.dispensed.zip j.comps := by simp [split]
    exact absurd (List.sum_eq_zero_iff_forall_eq_nat.1 zero n (List.of_mem_zip mem).1) short.1.ne'
  have list : (failedState s j t (some t.dispensed)).waitList c.pos = s.waitList c.pos := waitList_joinQueue _ _ _
  have can : (failedState s j t (some t.dispensed)).can c.pos = s.can c.pos := can_joinQueue _ _ _
  rw [State.spoilAttempt, failAttempt_eq job live, if_neg nonzero,
    retryReserve_waits (job?_failedState t _) rfl split (fun x hx => mt (short_failedState job _ x).1 (fits x hx))
      ((short_failedState job _ _).2 short), list, can, putJob_failedState]
  refine notifyJob_eq (j := { failed j t (some t.dispensed) with state := .waitingStock }) ?_ _
  exact (job?_examinePark _).trans ((job?_joinQueue _ _ _).trans (job?_putJob _ _ _))

end

/-- Settles O46: the three outcomes of a spoiled attempt are those of the re-reservation tried after `failAttempt`. -/
theorem spoiledAttemptsAreReservedAgain : Obligations.SpoiledAttemptsAreReservedAgain := by
  refine ⟨fun s h => ⟨joinQueue_mem, joinQueue_fresh, leaveQueue_eq s h⟩,
    fun s t j job cancelling cancelled length => ?_⟩
  have live : j.isCancelled = false := by simp [Job.isCancelled, cancelling, cancelled]
  exact ⟨failAttempt_eq job live, spoilAttempt_nothing job live, spoilAttempt_taken job live length,
    fun _ _ _ _ split fits short => spoilAttempt_waits job live split fits short⟩

end Sys2Proof.Stock
end

section
/-! The walk over a wait list (R49 to R51, R149): what it does with the job at the head, and the statement O48. -/

namespace Sys2Proof.Stock

open Sys2Proof Sys2Proof.Machine Sys2Proof.Submit

variable {s : State} {h : Handle} {j : Job}

theorem wake_parked (asleep : s.line.mode = .parking ∨ s.line.mode = .parked) :
    s.wake = ({ s with line := { s.line with mode := .run, guard := none } }).notifyAll (.line .run) :=
  if_pos (by simpa using asleep)

theorem wake_stays (awake : s.line.mode = .run ∨ s.line.mode = .halted) : s.wake = s :=
  if_neg (by rcases awake with mode | mode <;> simp [mode])

/-- The live state is ACTIVE while a tin of the job is called or on the line (R51). -/
theorem liveState_eq (s : State) (h : Handle) :
    s.liveState h = if s.called h = true ∨ 0 < s.tinCount h then JobState.active else .ready := by
  simp [State.liveState]

/-- A grant, as one write of the job's record (R50, R51). -/
theorem grant_eq (job : s.job? h = some j) (length : j.outstanding.length = j.comps.length) (p : Pos) :
    s.grant p h =
      (((s.putJob h { j with
        state := s.liveState h, pendingRe := none
        comps := withReserved j.outstanding j.comps }).setWait p ((s.waitList p).filter (· != h))).joinQueue h).notify
          j.owner (.jobState h (s.liveState h) .stockGranted) := by
  have tells (k : Job) (l : List Handle) (c : Cause) : (((s.putJob h k).setWait p l).joinQueue h).notifyJob h c =
      (((s.putJob h k).setWait p l).joinQueue h).notify k.owner (.jobState h k.state c) :=
    notifyJob_eq ((job?_joinQueue ((s.putJob h k).setWait p l) h h).trans (job?_putJob s h k)) c
  unfold State.grant
  dsimp only
  rw [modJob_eq job, addReserved_eq length]
  exact tells _ _ _

theorem moveWait_eq {p y : Pos} (other : y ≠ p) (returned : Bool) (k : Nat) :
    s.moveWait p y h returned k =
      (((s.setWait p ((s.waitList p).filter (· != h))).setWait y
        (if returned then h :: s.waitList y else s.waitList y ++ [h])).notify .w
          (.canisterWait y h k (k * (s.can y).kept.q))) := by
  rw [State.moveWait, waitList_setWait, if_neg other.symm]
  rfl

/-! ### The job at the head -/

section
variable {p : Pos} (rest : List Handle) (woke : Bool) (job : s.job? h = some j)
  (nodup : (j.comps.map fun c => c.pos).Nodup)
include job nodup

theorem walkFrom_stop (short : ∃ x ∈ j.outstanding.zip j.comps, x.2.pos = p ∧ Short s x) :
    State.walkFrom p (h :: rest) woke s = (s, woke) := by
  rw [State.walkFrom, job]
  exact if_pos ((shortAt_needOn p nodup _).2 short)

theorem walkFrom_grant (fits : ∀ x ∈ j.outstanding.zip j.comps, ¬ Short s x) :
    State.walkFrom p (h :: rest) woke s =
      State.walkFrom p rest (woke || s.liveState h == .ready) (s.grant p h) := by
  have here : ¬ s.shortAt p (needOn p j.outstanding j.comps) = true :=
    mt (shortAt_needOn p nodup _).1 fun ⟨x, hx, _, short⟩ => fits x hx short
  rw [State.walkFrom, job]
  dsimp only
  rw [if_neg here, firstShort_none fits]

theorem walkFrom_move {pre post : List (Nat × Component)} {n : Nat} {c : Component}
    (split : j.outstanding.zip j.comps = pre ++ (n, c) :: post) (fits : ∀ x ∈ pre, ¬ Short s x)
    (short : Short s (n, c)) (here : ∀ x ∈ j.outstanding.zip j.comps, x.2.pos = p → ¬ Short s x) :
    State.walkFrom p (h :: rest) woke s =
      State.walkFrom p rest woke (s.moveWait p c.pos h j.pendingRe.isSome n) := by
  have serves : ¬ s.shortAt p (needOn p j.outstanding j.comps) = true :=
    mt (shortAt_needOn p nodup _).1 fun ⟨x, hx, pos, short⟩ => here x hx pos short
  rw [State.walkFrom, job]
  dsimp only
  rw [if_neg serves, firstShort_first split fits short]

end

/-- Settles O48: the job at the head stops the walk, is granted, or moves to another list, and the walk goes on with
the rest. -/
theorem walkServesItsListFromTheHead : Obligations.WalkServesItsListFromTheHead := by
  intro s p
  refine ⟨rfl, fun _ => rfl, wake_parked, wake_stays, rfl, rfl, rfl, fun _ => rfl, fun h rest woke j job => ?_⟩
  intro needs short live left length nodup
  have outstanding : needs = j.outstanding := rfl
  have liveState : live = s.liveState h := (liveState_eq s h).symm
  refine ⟨walkFrom_stop rest woke job nodup, fun fits => ?_, fun pre n c post split fits first here => ?_⟩
  · rw [walkFrom_grant rest woke job nodup fits, grant_eq job length, liveState]
    rfl
  · have other : c.pos ≠ p := fun pos => here (n, c) (by simp [split]) pos first
    have list : (if j.pendingRe = none then s.waitList c.pos ++ [h] else h :: s.waitList c.pos) =
        if j.pendingRe.isSome then h :: s.waitList c.pos else s.waitList c.pos ++ [h] := by
      cases j.pendingRe <;> rfl
    rw [walkFrom_move rest woke job nodup split fits first here, moveWait_eq other, list]

end Sys2Proof.Stock
end

section
/-! What a command can do to the job slots and the dispense queue, said once: most keep every job in its slot, SUBMIT
fills one slot, RETIRE and CLEAR-PORT free slots of final jobs, and a start or a loss of power empties the table
(R58, R64, R83). -/

namespace Sys2Proof.JobTable

open Sys2Proof Sys2Proof.Machine

/-! ### The relations -/

/-- Every job stays itself in its slot, and no handle comes to stand twice in the queue. -/
structure Quiet (s t : State) : Prop where
  slots : ∀ i, (s.slot i).Keeps (t.slot i)
  queue : s.QueueOk → t.QueueOk

theorem Quiet.refl (s : State) : Quiet s s := ⟨fun _ => .refl _, id⟩

theorem Quiet.trans {a b c : State} (h : Quiet a b) (k : Quiet b c) : Quiet a c :=
  ⟨fun i => (h.slots i).trans (k.slots i), k.queue ∘ h.queue⟩

theorem Quiet.of_works {s t : State} (w : Works s t) : Quiet s t := ⟨w.slots, w.queue⟩

/-- A change of neither the slots nor the queue. -/
theorem Quiet.of_eq {s t : State} (slots : t.slots = s.slots) (queue : t.queue = s.queue) : Quiet s t where
  slots i := by rw [slot_congr slots]; exact .refl _
  queue h := by rw [State.QueueOk, queue]; exact h

/-- Work of the blocks behind such a change. -/
theorem Quiet.then_works {s u t : State} (w : Works u t) (slots : u.slots = s.slots) (queue : u.queue = s.queue) :
    Quiet s t := (Quiet.of_eq slots queue).trans (.of_works w)

/-- A slot freed of a job in a final state, its generation advanced (R58, R78). -/
def Freed (a b : Slot) : Prop := ∃ j, a.job = some j ∧ j.state.final = true ∧ b = { gen := nextGen a.gen, job := none }

/-- What one command does to the job table and the queue. -/
inductive TableStep (s t : State) : Prop
  | quiet (keeps : Quiet s t)
  | admits (i : Fin 24) (j : Job) (empty : (s.slot i).job = none) (room : j.n ≤ s.freeEntries)
      (keeps : Quiet (s.putJob ⟨i, (s.slot i).gen⟩ j) t)
  | frees (slots : ∀ i, t.slot i = s.slot i ∨ Freed (s.slot i) (t.slot i)) (queue : t.queue = s.queue)
  | restarts (power : ¬ (s.power = .on ∧ t.power = .on)) (slots : ∀ i, t.slot i = { gen := 1, job := none })
      (queue : t.queue = [])

/-- The frame and the answer of a request touch its port alone. -/
theorem TableStep.taken {s t : State} {p : Port} {a : Answer} (h : TableStep (s.popHold p) t) :
    TableStep s (t.answer p a) := by
  cases h with
  | quiet keeps => exact .quiet ⟨keeps.slots, keeps.queue⟩
  | admits i j empty room keeps => exact .admits i j empty room ⟨keeps.slots, keeps.queue⟩
  | frees slots queue => exact .frees slots queue
  | restarts power slots queue => exact .restarts power slots queue

/-- A request does what its effect does, where the effect is had at all. -/
theorem tableStep_take {s : State} {p : Port} {k : ReqKind} {tag : Byte} {body : Bytes}
    {refusal : State → Option Nak} {effect : State → State × Bytes}
    (h : ∀ u, refusal u = none → TableStep u (effect u).1) : TableStep s (s.take p k tag body refusal effect) := by
  rcases take_cases p k tag body refusal effect s with e | ⟨-, _, e⟩ | ⟨-, passes, e⟩
  · rw [e]; exact .quiet (.refl s)
  · rw [e]; exact .quiet (.of_eq rfl rfl)
  · rw [e]; exact (h _ passes).taken

theorem quiet_take {s : State} {p : Port} {k : ReqKind} {tag : Byte} {body : Bytes}
    {refusal : State → Option Nak} {effect : State → State × Bytes} (h : ∀ u, Quiet u (effect u).1) :
    TableStep s (s.take p k tag body refusal effect) := tableStep_take fun u _ => .quiet (h u)

theorem works_take {s : State} {p : Port} {k : ReqKind} {tag : Byte} {body : Bytes}
    {refusal : State → Option Nak} {effect : State → State × Bytes} (h : ∀ u, Works u (effect u).1) :
    TableStep s (s.take p k tag body refusal effect) := quiet_take fun u => .of_works (h u)

/-- A request that only reads. -/
theorem read_take {s : State} {p : Port} {k : ReqKind} {tag : Byte} {body : Bytes}
    {refusal : State → Option Nak} {content : State → Bytes} :
    TableStep s (s.take p k tag body refusal fun u => (u, content u)) := quiet_take fun u => .refl u

theorem quiet_event {s : State} {f : State → State} (h : Quiet s (f s)) : TableStep s (s.whenActive f) := by
  unfold State.whenActive
  split
  · exact .quiet h
  · exact .quiet (.refl s)

theorem works_event {s : State} {f : State → State} (h : Works s (f s)) : TableStep s (s.whenActive f) :=
  quiet_event (.of_works h)

theorem port_event {s : State} (p : Port) (v : State → PortState) :
    TableStep s (s.whenActive fun u => u.setPort p (v u)) := quiet_event (.of_eq rfl rfl)

/-- The guard input moves, and what the part does at it follows. -/
theorem guard_event {s : State} (g : GuardState) {f : State → State} (w : ∀ u, Works u (f u)) :
    TableStep s (({ s with guardInput := g }).whenActive f) := by
  have moved : Quiet s { s with guardInput := g } := .of_eq rfl rfl
  unfold State.whenActive
  split
  · exact .quiet (moved.trans (.of_works (w _)))
  · exact .quiet moved

/-! ### The canister requests -/

variable (b : Bytes) (s : State)

theorem quiet_install : Quiet s (installEffect b s).1 := by
  unfold installEffect
  exact .then_works (works_examineLow _ _) rfl rfl

theorem quiet_calibrate : Quiet s (calibrateEffect b s).1 := by
  unfold calibrateEffect
  refine Quiet.trans ?_ (.of_works (works_selectAfter _ _))
  split
  · exact .then_works (works_walk _ _) rfl rfl
  · exact .of_eq rfl rfl

theorem quiet_refillEnd : Quiet s (refillEndEffect b s).1 := by
  unfold refillEndEffect
  exact .then_works ((works_walk _ _).trans (works_selectAfter _ _)) rfl rfl

theorem quiet_adjust : Quiet s (adjustEffect b s).1 := by
  unfold adjustEffect
  refine Quiet.trans ?_ (.of_works (works_selectAfter _ _))
  split
  · exact .then_works (works_examineLow _ _) rfl rfl
  · split
    · exact .then_works (works_walk _ _) rfl rfl
    · exact .of_eq rfl rfl

theorem quiet_setLine : Quiet s (setLineEffect b s).1 := by
  unfold setLineEffect
  dsimp only
  split
  · exact .then_works (works_select _) rfl rfl
  · exact .of_eq rfl rfl

/-! ### SUBMIT, RETIRE and CLEAR-PORT -/

/-- SUBMIT passes its checks with as many tins as the pool leaves alone (R64, R72). -/
theorem submit_room {p : Port} (passes : submitRefusal p b s = none) : (submitBody b).n ≤ s.freeEntries := by
  unfold submitRefusal at passes
  simp only [StockLaws.firstRefusal_cons_eq_none] at passes
  obtain ⟨-, -, -, -, -, -, -, -, -, pool, -⟩ := passes
  simpa using pool

/-- The job of a SUBMIT has as many result entries as the pool leaves, and its slot was empty (R58, R64, R72). -/
theorem tableStep_submit (p : Port) (passes : submitRefusal p b s = none) : TableStep s (submitEffect p b s).1 := by
  unfold submitEffect
  split
  · exact .quiet (.refl s)
  next i found =>
    have empty : (s.slot i).job = none := by simpa using List.find?_some found
    have room : (submitBody b).n ≤ s.freeEntries := submit_room b s passes
    have admitted (k : Job) (size : k.n ≤ s.freeEntries) {t : State}
        (w : Works (s.setSlot i { gen := (s.slot i).gen, job := some k }) t) : TableStep s t :=
      .admits i k empty size (.of_works w)
    dsimp only [State.admitJob]
    split
    · refine admitted _ ?_ ((((works_joinQueue _ _).trans (works_notifyJob _ _ _)).trans (works_wake _)).trans
        (works_select _))
      exact room
    · refine admitted _ ?_ ((((works_setWait _ _ _).trans (works_notifyWait _ _ _ _)).trans
        (works_notifyJob _ _ _)).trans (works_select _))
      exact room

theorem slot_freeSlot (i k : Fin 24) :
    (s.freeSlot i).slot k = if i = k then { gen := nextGen (s.slot k).gen, job := none } else s.slot k := by
  rw [State.freeSlot, slot_setSlot]
  split
  · next here => rw [here]
  · rfl

/-- RETIRE passes its checks on a final job alone (R60, R78). -/
theorem retire_final {p : Port} (passes : retireRefusal p b s = none) :
    ∃ j, s.job? (handleOf b 0) = some j ∧ j.state.final = true := by
  simp only [retireRefusal, jobChecks, List.cons_append, List.nil_append, StockLaws.firstRefusal_cons_eq_none,
    StockLaws.refuseIf_eq_none, Option.isNone_eq_false_iff, Option.isSome_iff_exists] at passes
  obtain ⟨-, -, ⟨j, job⟩, -, state, -⟩ := passes
  refine ⟨j, job, ?_⟩
  simpa [stateCheck, job] using state

theorem tableStep_retire {p : Port} (passes : retireRefusal p b s = none) : TableStep s (retireEffect b s).1 := by
  obtain ⟨j, job, final⟩ := retire_final b s passes
  refine .frees (fun i => ?_) rfl
  unfold retireEffect
  dsimp only
  rw [slot_freeSlot]
  split
  · next here =>
    subst here
    exact .inr ⟨j, by rw [job?_eq_some job], final, rfl⟩
  · exact .inl rfl

/-- Slots freed one after another, each of them once. -/
theorem slot_freeSlots {l : List (Fin 24)} (nodup : l.Nodup) (i : Fin 24) :
    (l.foldl State.freeSlot s).slot i =
      if i ∈ l then { gen := nextGen (s.slot i).gen, job := none } else s.slot i := by
  induction l generalizing s with
  | nil => rfl
  | cons k l ih =>
    obtain ⟨fresh, nodup⟩ := List.nodup_cons.1 nodup
    rw [List.foldl_cons, ih _ nodup, slot_freeSlot]
    by_cases here : k = i
    · subst here; simp [fresh]
    · simp [here, Ne.symm here]

theorem freeSlots_rest (l : List (Fin 24)) :
    l.foldl State.freeSlot s = { s with slots := (l.foldl State.freeSlot s).slots } := by
  induction l generalizing s with
  | nil => rfl
  | cons k l ih => exact ih _

theorem mem_allSlots (i : Fin 24) : i ∈ allSlots := List.mem_finRange i

theorem allSlots_pairwise : allSlots.Pairwise (· < ·) := by decide

/-- The slots that CLEAR-PORT frees (R170). -/
theorem mem_finalSlots {p : Port} {i : Fin 24} :
    i ∈ s.finalSlots p ↔ ∃ j, (s.slot i).job = some j ∧ j.owner = p ∧ j.state.final = true := by
  rw [State.finalSlots, List.mem_filter, and_iff_right (mem_allSlots i)]
  cases (s.slot i).job <;> simp

theorem finalSlots_pairwise (p : Port) : (s.finalSlots p).Pairwise (· < ·) := allSlots_pairwise.filter _

theorem finalSlots_nodup (p : Port) : (s.finalSlots p).Nodup := (finalSlots_pairwise s p).imp fun h => h.ne

theorem tableStep_clear (p : Port) : TableStep s (clearEffect p s).1 := by
  refine .frees (fun i => ?_) ?_
  · unfold clearEffect
    dsimp only
    rw [slot_freeSlots _ (finalSlots_nodup s p)]
    split
    · next freed =>
      obtain ⟨j, job, -, final⟩ := (mem_finalSlots s).1 freed
      exact .inr ⟨j, job, final, rfl⟩
    · exact .inl rfl
  · have rest := congrArg State.queue (freeSlots_rest (s.setPort p (s.port p).clear) (s.finalSlots p))
    exact rest

/-! ### The start, and loss of power -/

theorem slot_reset (i : Fin 24) : State.reset.slot i = { gen := 1, job := none } := by
  show (Vector.replicate 24 ({ gen := 1, job := none } : Slot))[i] = _
  simp

theorem tableStep_partStart (off : s.active = false) (g : GuardState) (st : Store) (l : List Instr) :
    TableStep s (State.start g st l) :=
  .restarts (fun ⟨on, _⟩ => by simp [State.active, on] at off) slot_reset rfl

theorem tableStep_powerLoss (g : GuardState) (st : Store) (l : List Instr) : TableStep s (State.dark g st l) :=
  .restarts (fun ⟨_, on⟩ => nomatch on) slot_reset rfl

/-! ### Every command -/

/-- What a command does to the job table and the queue. -/
theorem tableStep_exec {i : Instr} {t : State} (h : exec i s = .next t) : TableStep s t := by
  cases i with
  | submit p tag body => cases h; exact tableStep_take fun u => tableStep_submit body u p
  | cancel p tag body => cases h; exact works_take (works_cancelEffect body)
  | resume p tag body => cases h; exact works_take (works_resumeEffect body)
  | retire p tag body => cases h; exact tableStep_take fun u => tableStep_retire body u
  | readJob p tag body => cases h; exact read_take
  | readTin p tag body => cases h; exact read_take
  | install p tag body => cases h; exact quiet_take (quiet_install body)
  | remove p tag body => cases h; exact quiet_take fun _ => .of_eq rfl rfl
  | calibrate p tag body => cases h; exact quiet_take (quiet_calibrate body)
  | refillBegin p tag body => cases h; exact quiet_take fun _ => .of_eq rfl rfl
  | refillEnd p tag body => cases h; exact quiet_take (quiet_refillEnd body)
  | adjust p tag body => cases h; exact quiet_take (quiet_adjust body)
  | readCanister p tag body => cases h; exact read_take
  | setTinClassSet p tag body =>
    cases h
    split
    · exact .quiet (.refl s)
    · exact quiet_take fun _ => .of_eq rfl rfl
  | setTinClassDelete p tag body =>
    cases h
    split
    · exact quiet_take fun _ => .of_eq rfl rfl
    · exact .quiet (.refl s)
  | setLine p tag body => cases h; exact quiet_take (quiet_setLine body)
  | lineModePark p tag body =>
    cases h
    split
    · exact .quiet (.refl s)
    · exact works_take works_parkEffect
  | lineModeWake p tag body =>
    cases h
    split
    · exact works_take works_wakeEffect
    · exact .quiet (.refl s)
  | resumeLine p tag body => cases h; exact works_take works_resumeLineEffect
  | mixerReturn p tag body => cases h; exact works_take (works_mixerReturnEffect body)
  | find p tag body => cases h; exact read_take
  | status p tag body => cases h; exact read_take
  | fetchNotice p tag body => cases h; exact quiet_take fun _ => .of_eq rfl rfl
  | clearPort p tag body => cases h; exact tableStep_take fun u _ => tableStep_clear u p
  | frameReceived p kind tag body crc =>
    simp only [exec, execFrameReceived] at h
    split at h
    · cases h; exact port_event p _
    · cases h
  | frameGapTimeout p => cases h; exact port_event p _
  | answerSent p =>
    cases h
    refine quiet_event ?_
    unfold State.answerSent
    split
    · exact .refl s
    · exact .of_eq rfl rfl
  | burstDone p n => cases h; exact works_event (works_burstDone s p n)
  | chargeDone p => cases h; exact works_event (works_chargeDone s p)
  | recircDone p => cases h; exact works_event (works_recircDone s p)
  | haltReport p n => cases h; exact works_event (works_haltReport s p n)
  | reading mass stable overload =>
    simp only [exec, execReading] at h
    split at h
    · cases h; exact works_event (works_reading s _ _ _)
    · cases h
  | scan cls base =>
    simp only [exec, execScan] at h
    split at h
    · cases h; exact works_event (works_scan s _ _)
    · cases h
  | loaded m => cases h; exact works_event (works_loaded s m)
  | clampFault m => cases h; exact works_event (works_clampFault s m)
  | lidded => cases h; exact works_event (works_lidded s)
  | tinTaken x => cases h; exact works_event (works_tinTaken s x)
  | guardOpened => cases h; exact guard_event .opened works_guardOpened
  | guardClosed => cases h; exact guard_event .closed works_guardClosed
  | resetAssert writing => cases h; exact quiet_event (.of_eq rfl rfl)
  | partStart =>
    cases h
    split
    · exact .quiet (.refl s)
    · next off => exact tableStep_partStart s (by simpa using off) _ _ _
  | settleTimerExpiry p => cases h; exact works_event (works_settleExpiry s p)
  | keepStirTimerExpiry p => cases h; exact works_event (works_keepStirExpiry s p)
  | callTimerExpiry => cases h; exact works_event (works_callExpiry s)
  | dwellTimerExpiry d => cases h; exact works_event (works_dwellExpiry s d)
  | dripTimerExpiry => cases h; exact works_event (works_dripExpiry s)
  | scaleSettleTimeout => cases h; exact works_event (works_scaleTimeout s)
  | mixTimerExpiry m => cases h; exact works_event (works_mixExpiry s m)
  | powerLoss writing =>
    cases h
    split
    · exact .quiet (.refl s)
    · exact tableStep_powerLoss s _ _ _
  | frameStartByte p => cases h; exact port_event p _
  | lengthByteAbove240 p len =>
    simp only [exec, execLengthByteAbove240] at h
    split at h
    · cases h; exact port_event p _
    · cases h

/-- What a step does to the job table and the queue: that of its command, and a millisecond does nothing to them. -/
theorem tableStep_step {t : State} (h : step s = .next t) : TableStep s t := by
  unfold step at h
  split at h
  · cases h
    exact quiet_event (.of_eq rfl rfl)
  · next c rest _ =>
    cases tableStep_exec { s with pending := rest } h with
    | quiet keeps => exact .quiet ⟨keeps.slots, keeps.queue⟩
    | admits i j empty room keeps => exact .admits i j empty room ⟨keeps.slots, keeps.queue⟩
    | frees slots queue => exact .frees slots queue
    | restarts power slots queue => exact .restarts power slots queue

end Sys2Proof.JobTable
end

section
/-! The laws of the job table and the queue (R58, R64, R83), and what a job keeps until its slot is freed (R61 to R63):
the statements O13 and O18. -/

namespace Sys2Proof.JobTable

open Sys2Proof Sys2Proof.Machine

variable {s t : State}

/-! ### The result pool -/

/-- The result entries that a slot's job uses (R64). -/
def entries (x : Slot) : Nat := (x.job.map Job.n).getD 0

theorem entries_keeps {a b : Slot} (h : a.Keeps b) : entries b = entries a := by
  obtain ⟨-, same⟩ := h
  unfold entries
  revert same
  cases a.job <;> cases b.job <;> simp
  exact fun keeps => keeps.n

theorem entries_sum (s : State) : (s.jobs.map fun x => x.2.n).sum = ∑ i, entries (s.slot i) := by
  have slots (l : List (Fin 24)) : ((l.filterMap fun i => (s.slot i).job.map fun j =>
      ((⟨i, (s.slot i).gen⟩ : Handle), j)).map fun x => x.2.n).sum = (l.map fun i => entries (s.slot i)).sum := by
    induction l with
    | nil => rfl
    | cons i l ih =>
      rw [List.map_cons, List.sum_cons, ← ih, List.filterMap_cons]
      cases job : (s.slot i).job <;> simp [entries, job]
  exact (slots allSlots).trans (Fin.sum_univ_def _).symm

theorem poolOk_of_le (h : ∀ i, entries (t.slot i) ≤ entries (s.slot i)) (ok : s.PoolOk) : t.PoolOk := by
  unfold State.PoolOk at ok ⊢
  rw [entries_sum] at ok ⊢
  exact (Finset.sum_le_sum fun i _ => h i).trans ok

/-- A job no larger than the free pool fills it no further than its 400 entries. -/
theorem poolOk_putJob {h : Handle} {j : Job} (room : j.n ≤ s.freeEntries) (ok : s.PoolOk) :
    (s.putJob h j).PoolOk := by
  have filled : (fun i => entries ((s.putJob h j).slot i)) =
      Function.update (fun i => entries (s.slot i)) h.slot j.n := by
    funext i
    rw [State.putJob, slot_setSlot, Function.update_apply]
    by_cases here : h.slot = i
    · simp [here, entries]
    · simp [here, Ne.symm here]
  have others : ∑ i ∈ Finset.univ \ {h.slot}, entries (s.slot i) ≤ ∑ i, entries (s.slot i) :=
    Finset.sum_le_sum_of_subset (Finset.subset_univ _)
  unfold State.PoolOk State.freeEntries Config.poolEntries at *
  rw [entries_sum] at ok room ⊢
  rw [filled, Finset.sum_update_of_mem (Finset.mem_univ _)]
  omega

/-! ### The laws -/

theorem gensOk_quiet (h : Quiet s t) (ok : s.GensOk) : t.GensOk := fun i => by
  obtain ⟨gen, -⟩ := h.slots i
  rw [gen]; exact ok i

theorem gensOk_putJob (i : Fin 24) (j : Job) (ok : s.GensOk) : (s.putJob ⟨i, (s.slot i).gen⟩ j).GensOk := fun k => by
  rw [State.putJob, slot_setSlot]
  split
  · exact ok i
  · exact ok k

/-- The generation after a job freed is again 1 to 255 (R58). -/
theorem nextGen_mem {g : Nat} (h : g ≤ 255) : 1 ≤ nextGen g ∧ nextGen g ≤ 255 := by
  unfold nextGen
  split <;> omega

theorem gensOk_tableStep (h : TableStep s t) (ok : s.GensOk) : t.GensOk := by
  cases h with
  | quiet keeps => exact gensOk_quiet keeps ok
  | admits i j _ _ keeps => exact gensOk_quiet keeps (gensOk_putJob i j ok)
  | frees slots =>
    intro i
    rcases slots i with same | ⟨j, -, -, freed⟩
    · rw [same]; exact ok i
    · rw [freed]; exact nextGen_mem (ok i).2
  | restarts _ slots => intro i; rw [slots]; decide

theorem poolOk_quiet (h : Quiet s t) : s.PoolOk → t.PoolOk := poolOk_of_le fun i => (entries_keeps (h.slots i)).le

theorem poolOk_tableStep (h : TableStep s t) (ok : s.PoolOk) : t.PoolOk := by
  cases h with
  | quiet keeps => exact poolOk_quiet keeps ok
  | admits i j _ room keeps => exact poolOk_quiet keeps (poolOk_putJob room ok)
  | frees slots =>
    refine poolOk_of_le (fun i => ?_) ok
    rcases slots i with same | ⟨j, -, -, freed⟩
    · rw [same]
    · rw [freed]; exact Nat.zero_le _
  | restarts _ slots => exact poolOk_of_le (fun i => by rw [slots]; exact Nat.zero_le _) ok

theorem queueOk_tableStep (h : TableStep s t) (ok : s.QueueOk) : t.QueueOk := by
  cases h with
  | quiet keeps => exact keeps.queue ok
  | admits _ _ _ _ keeps => exact keeps.queue ok
  | frees _ queue => rw [State.QueueOk, queue]; exact ok
  | restarts _ _ queue => rw [State.QueueOk, queue]; exact List.nodup_nil

/-- Settles O13: each law over the four things a step can do to the job table. -/
theorem stepsKeepJobTableAndQueueLaws : Obligations.StepsKeepJobTableAndQueueLaws := fun s t h =>
  have table : TableStep s t := tableStep_step s h
  ⟨gensOk_tableStep table, poolOk_tableStep table, queueOk_tableStep table⟩

/-! ### What a job keeps -/

theorem slot_keeps {a b : Slot} {j : Job} (h : a.Keeps b) (job : a.job = some j) :
    ∃ k, b = ⟨a.gen, some k⟩ ∧ j.Keeps k := by
  obtain ⟨gen, same⟩ := h
  obtain ⟨g, job'⟩ := b
  rw [job] at same
  cases job' with
  | none => exact same.elim
  | some k => exact ⟨k, by rw [← gen], same⟩

theorem final_iff (x : JobState) : x.final = true ↔ x = .done ∨ x = .cancelled := by
  cases x <;> decide

/-- Settles O18: a job is kept by all a step can do to its slot but a freeing, which only a final job meets, and a
restart, across which the part does not run. -/
theorem jobsKeepWhatWasAdmitted : Obligations.JobsKeepWhatWasAdmitted := by
  intro s t i j job h
  cases tableStep_step s h with
  | quiet keeps => exact .inl (slot_keeps (keeps.slots i) job)
  | admits k new empty _ keeps =>
    have other : k ≠ i := fun here => by rw [here, job] at empty; cases empty
    have kept := keeps.slots i
    rw [State.putJob, slot_setSlot, if_neg other] at kept
    exact .inl (slot_keeps kept job)
  | frees slots =>
    rcases slots i with same | ⟨k, held, final, freed⟩
    · exact .inl ⟨j, by rw [same, ← job], .refl j⟩
    · obtain rfl : j = k := by rw [job] at held; cases held; rfl
      exact .inr ⟨by rw [freed], fun _ _ => (final_iff _).1 final⟩
  | restarts power slots => exact .inr ⟨by rw [slots], fun before after => absurd ⟨before, after⟩ power⟩

end Sys2Proof.JobTable
end

section
/-! The requests whose body is a handle (R59, R60): the checks they share, and the taking of one. -/

namespace Sys2Proof.JobRequests

open Sys2Proof Sys2Proof.Machine Sys2Proof.Submit Sys2Proof.Reading Sys2Proof.Requests

/-- The refusal of a request whose body is a handle: `ok` says in which states of the job named it is taken (R60). -/
def handleRefusal (p : Port) (b : Bytes) (ok : JobState → Bool) (s : State) : Option Nak :=
  firstRefusal (jobChecks p b 2 [] s ++ [stateCheck b s ok])

section
variable {s : State} {p : Port} {b : Bytes} {ok : JobState → Bool}

theorem handleRefusal_length (h : b.length ≠ 2) : handleRefusal p b ok s = some (nak .format) := by
  simp [handleRefusal, jobChecks, h]

theorem handleRefusal_range (length : b.length = 2) (h : 23 < u8 b 0 ∨ u8 b 1 = 0) :
    handleRefusal p b ok s = some (nakField .range 1) := by
  have bad : (decide (23 < u8 b 0) || decide (u8 b 1 = 0)) = true := by simpa using h
  simp [handleRefusal, jobChecks, length, refuseIf_of bad]

/-- A body that is a handle is checked against the job named. -/
theorem handleRefusal_named (length : b.length = 2) (slot : u8 b 0 ≤ 23) (gen : 1 ≤ u8 b 1) :
    handleRefusal p b ok s = firstRefusal
      [refuseIf (s.job? (handleOf b 0)).isNone (nak .noJob),
        refuseIf (p != .w && ((s.job? (handleOf b 0)).map (·.owner)) != some p) (nak .notOwner),
        stateCheck b s ok] := by
  have good : (decide (23 < u8 b 0) || decide (u8 b 1 = 0)) = false := by simp; omega
  simp [handleRefusal, jobChecks, length, refuseIf_of_not good]

/-- NO-JOB and NOT-OWNER (R59, R60). -/
theorem handleRefusal_job (length : b.length = 2) {detail : Bytes} (h : s.JobRefused p b detail) :
    ∃ r, handleRefusal p b ok s = some r ∧ r.bytes = detail := by
  obtain ⟨i, slot, gen, ⟨missing, rfl⟩ | ⟨j, held, same, port, owner, rfl⟩⟩ := h
  · refine ⟨nak .noJob, ?_, rfl⟩
    have none : s.job? ⟨i, u8 b 1⟩ = none := by
      rcases missing with empty | other
      · simp [State.job?, empty]
      · simp [State.job?, other]
    rw [handleRefusal_named length (by omega) gen, handleOf_eq slot rfl, none]
    rfl
  · refine ⟨nak .notOwner, ?_, rfl⟩
    have named : s.job? ⟨i, u8 b 1⟩ = some j := by simp [State.job?, held, same]
    rw [handleRefusal_named length (by omega) gen, handleOf_eq slot rfl, named,
      refuseIf_of (show (p != .w && (Option.map (·.owner) (some j)) != some p) = true by simp [port, owner])]
    rfl

/-- The body that names a handle. -/
def handleBody (h : Handle) : Bytes := [byte h.slot.val, byte h.gen]

theorem handleOf_handleBody {h : Handle} (gen : h.gen ≤ 255) : handleOf (handleBody h) 0 = h :=
  handleOf_eq (byte_toNat (by omega)) (byte_toNat (by omega))

/-- A body that names a job of its port is checked against the job's state. -/
theorem handleRefusal_own {h : Handle} {j : Job} (job : s.job? h = some j) (own : j.owner = p) (valid : 1 ≤ h.gen)
    (gen : h.gen ≤ 255) : handleRefusal p (handleBody h) ok s = refuseIf (!ok j.state) (nak .state) := by
  have slot : u8 (handleBody h) 0 = h.slot.val := byte_toNat (by omega)
  have generation : u8 (handleBody h) 1 = h.gen := byte_toNat (by omega)
  have owned : (p != .w && (Option.map (·.owner) (some j)) != some p) = false := by simp [own]
  rw [handleRefusal_named rfl (by omega) (by omega), stateCheck, handleOf_handleBody gen, job, refuseIf_of_not owned]
  show firstRefusal [none, none, refuseIf (!ok j.state) (nak .state)] = _
  cases refuseIf (!ok j.state) (nak .state) <;> rfl

end

section
variable {s : State} {p : Port} {k : ReqKind} {tag : Byte} {row : Bytes → Instr} {ok : JobState → Bool}
  {effect : Bytes → State → State × Bytes} {h : Handle} {j : Job}

/-- A row whose request has these checks makes them in their order. -/
theorem checksHandle (ha : admits k p = true)
    (exec_row : ∀ b, exec (row b) s = .next (s.take p k tag b (handleRefusal p b ok) (effect b))) :
    s.ChecksHandle p k tag row := by
  intro body ht refused
  have answer {r : Nak} (hr : handleRefusal p body ok s = some r) : refused r.bytes :=
    (exec_row body).trans (taken_refused (refusal := handleRefusal p body ok) ht ha rfl hr rfl)
  refine ⟨fun length => answer (handleRefusal_length length), fun length =>
    ⟨fun range => answer (handleRefusal_range length range), fun detail job => ?_⟩⟩
  obtain ⟨r, hr, rfl⟩ := handleRefusal_job (ok := ok) length job
  exact answer hr

variable (job : s.job? h = some j) (own : j.owner = p) (valid : 1 ≤ h.gen) (gen : h.gen ≤ 255)
  (ht : s.Takes p k tag (handleBody h)) (ha : admits k p = true)
  (exec_row : ∀ b, exec (row b) s = .next (s.take p k tag b (handleRefusal p b ok) (effect b)))
include job own valid gen ht ha exec_row

/-- A request for an own job in a state it is not taken in (R60). -/
theorem exec_handle_state (bad : ok j.state = false) :
    exec (row (handleBody h)) s = .next (s.replied p k tag [0x06, 0, 0]) :=
  (exec_row _).trans (taken_refused (refusal := handleRefusal p (handleBody h) ok) ht ha rfl
    ((handleRefusal_own job own valid gen).trans (refuseIf_of (by rw [bad]; rfl) (nak .state))) rfl)

/-- A request for an own job in a state it is taken in has its effect. -/
theorem exec_handle_ok (good : ok j.state = true) {t : State} {content : Bytes}
    (he : effect (handleBody h) (s.popHold p) = (t, content)) :
    exec (row (handleBody h)) s = .next (t.answered p k tag content) :=
  (exec_row _).trans (taken_ok (refusal := handleRefusal p (handleBody h) ok) ht ha rfl
    ((handleRefusal_own job own valid gen).trans (refuseIf_of_not (by rw [good]; rfl) (nak .state))) he)

end

end Sys2Proof.JobRequests
end

section
/-! RETIRE and CLEAR-PORT (R58, R78, R170), and the statement O37. -/

namespace Sys2Proof.JobRequests

open Sys2Proof Sys2Proof.Machine Sys2Proof.Submit Sys2Proof.Requests Sys2Proof.JobTable

variable {s : State} {p : Port} {tag : Byte}

theorem exec_retire (p : Port) (tag : Byte) (s : State) (b : Bytes) : exec (.retire p tag b) s =
    .next (s.take p .retire tag b (handleRefusal p b JobState.final) (retireEffect b)) := rfl

theorem admits_retire (hp : p ≠ .w) : admits .retire p = true := bne_iff_ne.2 hp

/-- The generation after one from 1 to 255 (R58). -/
theorem nextGen_eq {g : Nat} (h : g ≤ 255) : nextGen g = if g = 255 then 1 else g + 1 := by
  unfold nextGen
  split <;> split <;> omega

theorem retireEffect_eq {t : State} {h : Handle} {j : Job} (job : t.job? h = some j) (gen : h.gen ≤ 255) :
    retireEffect (handleBody h) t =
      (t.setSlot h.slot { gen := if h.gen = 255 then 1 else h.gen + 1, job := none }, handleBody h) := by
  rw [retireEffect, handleOf_handleBody gen, State.freeSlot, job?_eq_some job, nextGen_eq gen]
  rfl

/-- The list of freed handles in the answer of CLEAR-PORT (R170, R179). -/
theorem places_handles {l : List Handle} (few : l.length ≤ 24) :
    places 24 2 encHandle l =
      l.flatMap (fun h => [byte h.slot.val, byte h.gen]) ++ List.replicate (2 * (24 - l.length)) 0 := by
  rw [places, List.take_of_length_le few, Nat.mul_comm]
  rfl

theorem clearPort_refused {body : Bytes} (ht : s.Takes p .clearPort tag body) (some : body ≠ []) :
    exec (.clearPort p tag body) s = .next (s.replied p .clearPort tag [0x02, 0, 0]) := by
  refine taken_refused (refusal := emptyBodyRefusal body) (effect := clearEffect p) (r := nak .format) ht rfl rfl ?_ rfl
  simp [emptyBodyRefusal, some]

theorem clearPort_ok (ht : s.Takes p .clearPort tag []) : exec (.clearPort p tag []) s = .next
    ((clearEffect p (s.popHold p)).1.answered p .clearPort tag (clearEffect p (s.popHold p)).2) :=
  taken_ok (refusal := emptyBodyRefusal []) (effect := clearEffect p) ht rfl rfl rfl rfl

theorem clearContent_eq (s : State) (p : Port) : (clearEffect p s).2 =
    [byte (s.port p).notices.length, byte (s.finalSlots p).length] ++
      ((s.finalSlots p).flatMap fun i : Fin 24 => [byte i.val, byte (s.slot i).gen]) ++
        List.replicate (2 * (24 - (s.finalSlots p).length)) 0 := by
  have few : (s.finalSlots p).length ≤ 24 := List.length_filter_le _ allSlots
  rw [clearEffect, places_handles (by simpa using few), List.flatMap_map, List.length_map, List.append_assoc]

/-- CLEAR-PORT touches the port and the slots alone. -/
theorem clearEffect_rest (s : State) (p : Port) : (clearEffect p s).1 =
    { s with ports := (clearEffect p s).1.ports, slots := (clearEffect p s).1.slots } := by
  have rest := freeSlots_rest (s.setPort p (s.port p).clear) (s.finalSlots p)
  have ports := congrArg State.ports rest
  exact rest.trans (by rw [← ports]; rfl)

theorem clearEffect_port (s : State) (p q : Port) :
    (clearEffect p s).1.port q = if p = q then (s.port p).clear else s.port q := by
  have ports := congrArg State.ports (freeSlots_rest (s.setPort p (s.port p).clear) (s.finalSlots p))
  exact (port_congr ports q).trans (port_setPort s p q _)

theorem clearEffect_slot (s : State) (p : Port) (i : Fin 24) : (clearEffect p s).1.slot i =
    if i ∈ s.finalSlots p then { gen := nextGen (s.slot i).gen, job := none } else s.slot i :=
  slot_freeSlots (s.setPort p (s.port p).clear) (finalSlots_nodup s p) i

/-- Settles O37: RETIRE frees the slot its handle names, and CLEAR-PORT those of `finalSlots`. -/
theorem retireAndClearPortFreeSlots : Obligations.RetireAndClearPortFreeSlots := by
  intro s p tag
  refine ⟨fun hp => checksHandle (admits_retire hp) (exec_retire p tag s), fun body ht some => clearPort_refused ht some,
    fun h j hp job own valid gen ht => ⟨fun done cancelled => ?_, fun final => ?_⟩, fun ht ok => ?_⟩
  · refine exec_handle_state job own valid gen ht (admits_retire hp) (exec_retire p tag s) ?_
    rw [← Bool.not_eq_true, final_iff]
    exact not_or.2 ⟨done, cancelled⟩
  · exact exec_handle_ok job own valid gen ht (admits_retire hp) (exec_retire p tag s) ((final_iff _).2 final)
      (retireEffect_eq (t := s.popHold p) job gen)
  · intro final
    have freed (i : Fin 24) : i ∈ (s.popHold p).finalSlots p ↔ final i := by
      simp only [mem_finalSlots, final_iff]
      exact Iff.rfl
    have port : (s.popHold p).port p = { s.port p with hold := (s.port p).hold.tail } := port_setPort_same s p _
    refine ⟨(clearEffect p (s.popHold p)).1, (s.popHold p).finalSlots p, ?_, finalSlots_pairwise _ p, freed,
      clearEffect_rest _ p, fun q => ?_, fun i => ⟨fun here => ?_, fun other => ?_⟩⟩
    · rw [clearPort_ok ht, clearContent_eq, port]
      rfl
    · rw [clearEffect_port]
      by_cases same : p = q
      · subst same; simp [PortState.clear]
      · rw [if_neg same, if_neg (Ne.symm same)]
        exact port_setPort_other s same _
    · rw [clearEffect_slot, if_pos ((freed i).2 here)]
      exact congrArg (fun g => (⟨g, none⟩ : Slot)) (nextGen_eq (ok i).2)
    · rw [clearEffect_slot, if_neg (mt (freed i).1 other)]
      rfl

end Sys2Proof.JobRequests
end

section
/-! RESUME (R54, R66, R77): the re-reservation it tries, the two ways it ends, and the statement O36. -/

namespace Sys2Proof.JobRequests

open Sys2Proof Sys2Proof.Machine Sys2Proof.Submit Sys2Proof.Requests Sys2Proof.Stock

variable {s : State} {p : Port} {tag : Byte} {h : Handle} {j : Job}

theorem exec_resume (p : Port) (tag : Byte) (s : State) (b : Bytes) : exec (.resume p tag b) s =
    .next (s.take p .resume tag b (handleRefusal p b fun x => x == .suspended) (resumeEffect b)) := rfl

theorem admits_resume (hp : p ≠ .w) : admits .resume p = true := bne_iff_ne.2 hp

/-! ### The record a RESUME leaves -/

/-- A job that RESUME takes, before its state and its re-reservation (R77). -/
def cleared (j : Job) : Job := { j with expiries := 0, cause := none }

theorem resumed_plain (other : j.cause ≠ some .lotStop) : j.resumed s = cleared j := by
  unfold Job.resumed
  rw [if_neg (by simpa using other)]
  rfl

/-- A component whose lot has changed takes the new lot and the mark (R77, R87). -/
theorem markLot_eq (s : State) (c : Component) : s.markLot c =
    if c.lotSnap ≠ (s.can c.pos).kept.lot then { c with lotSnap := (s.can c.pos).kept.lot, lotBreak := true }
    else c := by
  simp only [State.markLot, State.lotDiffers, bne_iff_ne]

theorem resumed_lotStop (cause : j.cause = some .lotStop) :
    j.resumed s = { cleared j with comps := j.comps.map s.markLot } := by
  unfold Job.resumed
  rw [if_pos (by simp [cause])]
  rfl

/-! ### The re-reservation -/

theorem resumeReserve_none (other : ∀ x ∈ [Cause.weighStop, .weighNoneStop], j.cause ≠ some x) :
    s.resumeReserve h j.cause = (s, none) := by
  refine if_neg ?_
  simpa using other

theorem resumeReserve_weigh (cause : j.cause = some .weighStop ∨ j.cause = some .weighNoneStop) :
    s.resumeReserve h j.cause = s.retryReserve h := by
  refine if_pos ?_
  simpa using cause

/-- Writing a record with the same components neither takes nor frees volume. -/
theorem short_putJob (job : s.job? h = some j) {k : Job} (comps : k.comps = j.comps) (x : Nat × Component) :
    Short (s.putJob h k) x ↔ Short s x := by
  have free := freeVol_putJob job comps x.2.pos
  rw [Short, free]
  rfl

/-! ### The two ways a RESUME ends -/

/-- A job that need not wait goes back to READY or ACTIVE, and a READY one wakes the line (R66, R77, R149). -/
theorem resumeJob_back (job : s.job? h = some j) {k : Job}
    (r : (s.putJob h (j.resumed s)).resumeReserve h j.cause = (s.putJob h k, none)) :
    s.resumeJob h j =
      (((((s.putJob h { k with state := s.liveState h }).notify k.owner (.jobState h (s.liveState h) .resumed)).wakeIf
        (s.liveState h == .ready)).selectAfter s), [codeJobState (s.liveState h), 0, 0]) := by
  have live : (s.putJob h k).liveState h = s.liveState h := rfl
  have tells := notifyJob_eq (job?_putJob s h { k with state := s.liveState h }) .resumed
  unfold State.resumeJob
  simp only [modJob_eq job, r, live, modJob_eq (job?_putJob s h k), putJob_putJob, tells]
  rfl

/-- Changing a job to what it is changes nothing. -/
theorem modJob_self (job : s.job? h = some j) {f : Job → Job} (same : f j = j) : s.modJob h f = s := by
  rw [modJob_eq job, same, State.putJob, ← job?_eq_some job]
  simp [State.setSlot, State.slot]

/-- A job that must wait is WAITING-STOCK already when its owner is told (R54, R77). -/
theorem resumeJob_waits {u : State} {q : Pos} {k : Job} (job : s.job? h = some j)
    (r : (s.putJob h (j.resumed s)).resumeReserve h j.cause = (u, some q)) (named : u.job? h = some k)
    (state : k.state = .waitingStock) :
    s.resumeJob h j =
      ((u.notify k.owner (.jobState h .waitingStock .resumed)).selectAfter s, [1, 1, byte q.val]) := by
  have same : u.modJob h (fun j => { j with state := .waitingStock }) = u :=
    modJob_self named (by rw [← state])
  have tells := notifyJob_eq named .resumed
  unfold State.resumeJob
  simp only [modJob_eq job, r, same, tells, state]
  rfl

/-! ### A RESUME that is taken -/

section
variable (job : s.job? h = some j) (own : j.owner = p) (valid : 1 ≤ h.gen) (gen : h.gen ≤ 255)
  (ht : s.Takes p .resume tag (handleBody h)) (hp : p ≠ .w) (state : j.state = .suspended)
include job own valid gen ht hp state

theorem exec_resume_ok {t : State} {content : Bytes} (he : (s.popHold p).resumeJob h j = (t, content)) :
    exec (.resume p tag (handleBody h)) s = .next (t.answered p .resume tag content) := by
  refine exec_handle_ok (ok := fun x => x == .suspended) job own valid gen ht (admits_resume hp) (exec_resume p tag s)
    (by rw [state]; rfl) ?_
  have named : (s.popHold p).job? h = some j := job
  rw [resumeEffect, handleOf_handleBody gen, named]
  exact he

/-- RESUME of a job that need not wait. -/
theorem exec_resume_back {k : Job} (owner : k.owner = j.owner)
    (r : ((s.popHold p).putJob h (j.resumed (s.popHold p))).resumeReserve h j.cause =
      ((s.popHold p).putJob h k, none)) :
    exec (.resume p tag (handleBody h)) s = .next
      ((((((s.popHold p).putJob h { k with state := s.liveState h }).notify p
        (.jobState h (s.liveState h) .resumed)).wakeIf (s.liveState h == .ready)).selectAfter
          (s.popHold p)).answered p .resume tag [codeJobState (s.liveState h), 0, 0]) := by
  refine exec_resume_ok job own valid gen ht hp state ((resumeJob_back (s := s.popHold p) job r).trans ?_)
  rw [owner, own]
  rfl

theorem exec_resume_waits {u : State} {q : Pos} {k : Job} (owner : k.owner = j.owner)
    (r : ((s.popHold p).putJob h (j.resumed (s.popHold p))).resumeReserve h j.cause = (u, some q))
    (named : u.job? h = some k) (waiting : k.state = .waitingStock) :
    exec (.resume p tag (handleBody h)) s = .next
      (((u.notify p (.jobState h .waitingStock .resumed)).selectAfter (s.popHold p)).answered p .resume tag
        [1, 1, byte q.val]) := by
  refine exec_resume_ok job own valid gen ht hp state ((resumeJob_waits (s := s.popHold p) job r named waiting).trans ?_)
  rw [owner, own]

end

/-- Settles O36: each cause decides what `resumeReserve` does, and the job then goes back or waits. -/
theorem resumeReturnsASuspendedJob : Obligations.ResumeReturnsASuspendedJob := by
  refine ⟨fun s p tag hp => checksHandle (admits_resume hp) (exec_resume p tag s),
    fun s p tag h j hp job own valid gen ht => ?_⟩
  intro i live k back short
  have liveState : s.liveState h = live := liveState_eq s h
  refine ⟨fun other => exec_handle_state job own valid gen ht (admits_resume hp) (exec_resume p tag s)
    (beq_eq_false_iff_ne.2 other), fun state => ?_⟩
  have goes {m : Job} (owner : m.owner = j.owner)
      (r : ((s.popHold p).putJob h (j.resumed (s.popHold p))).resumeReserve h j.cause =
        ((s.popHold p).putJob h m, none)) : exec i s = .next (back { m with state := live }) := by
    have taken := exec_resume_back job own valid gen ht hp state owner r
    rw [liveState] at taken
    exact taken
  refine ⟨fun cause => goes (m := cleared j) rfl ?_, fun cause => ?_, fun cause => ?_⟩
  · rw [resumed_plain (by simp [cause]), resumeReserve_none (by simp [cause])]
  · have marks : j.comps.map (s.popHold p).markLot = j.comps.map fun c : Component =>
        if c.lotSnap ≠ (s.can c.pos).kept.lot then { c with lotSnap := (s.can c.pos).kept.lot, lotBreak := true }
        else c := List.map_congr_left fun c _ => markLot_eq (s.popHold p) c
    rw [← marks]
    refine goes (m := { cleared j with comps := j.comps.map (s.popHold p).markLot }) rfl ?_
    rw [resumed_lotStop cause, resumeReserve_none (by simp [cause])]
  · have plain : j.resumed (s.popHold p) = cleared j := resumed_plain (by rcases cause with c | c <;> simp [c])
    have popped : (s.popHold p).job? h = some j := job
    have record := job?_putJob (s.popHold p) h (cleared j)
    have same (x : Nat × Component) : Short ((s.popHold p).putJob h (cleared j)) x ↔ short x :=
      short_putJob (k := cleared j) popped rfl x
    refine ⟨fun pending => goes (m := cleared j) rfl ?_, fun l pending length fits =>
      goes (m := { cleared j with pendingRe := none, comps := withReserved l j.comps }) rfl ?_,
      fun l pre n c post pending split fits first => ?_⟩
    · rw [plain, resumeReserve_weigh cause, retryReserve_nothing record pending]
    · rw [plain, resumeReserve_weigh cause, retryReserve_taken record pending length fun x hx => mt (same x).1 (fits x hx),
        putJob_putJob]
      rfl
    · have waits := retryReserve_waits record pending split (fun x hx => mt (same x).1 (fits x hx)) ((same _).2 first)
      rw [putJob_putJob, leaveQueue_eq] at waits
      refine exec_resume_waits (k := { cleared j with state := .waitingStock }) job own valid gen ht hp state rfl
        (by rw [plain, resumeReserve_weigh cause, waits]; rfl) ?_ rfl
      exact (job?_examinePark _).trans (job?_putJob _ _ _)

end Sys2Proof.JobRequests
end

section
/-! CANCEL up to the station tin (R55, R74, R92): the records it writes, what it makes the job leave, and the walks it
starts. -/

namespace Sys2Proof.JobRequests

open Sys2Proof Sys2Proof.Machine Sys2Proof.Submit Sys2Proof.Requests Sys2Proof.Stock

variable {s : State} {p : Port} {tag : Byte} {h : Handle} {j : Job}

theorem exec_cancel (p : Port) (tag : Byte) (s : State) (b : Bytes) : exec (.cancel p tag b) s =
    .next (s.take p .cancel tag b (handleRefusal p b JobState.cancellable) (cancelEffect b)) := rfl

theorem admits_cancel (hp : p ≠ .w) : admits .cancel p = true := bne_iff_ne.2 hp

theorem cancellable_iff (x : JobState) : x.cancellable = true ↔ x ∉ [JobState.cancelling, .done, .cancelled] := by
  cases x <;> decide

/-! ### The tins of a job -/

theorem called_iff (s : State) (h : Handle) : s.called h = true ↔ ∃ c, s.call = some c ∧ c.handle = h := by
  unfold State.called
  cases s.call <;> simp

theorem tins_eq (s : State) : s.tins.map (·.2) = [s.tin, s.m1.tin, s.m2.tin, s.lidder.tin].filterMap id := by
  unfold State.tins
  cases s.tin <;> cases s.m1.tin <;> cases s.m2.tin <;> cases s.lidder.tin <;> rfl

theorem tinCount_eq (s : State) (h : Handle) : s.tinCount h =
    (([s.tin, s.m1.tin, s.m2.tin, s.lidder.tin].filterMap id).filter fun t : TinCtx => t.handle == h).length := by
  rw [← tins_eq, List.filter_map, List.length_map]
  rfl

theorem tinCount_congr {u : State} (tins : u.tins = s.tins) : u.tinCount h = s.tinCount h := by
  rw [State.tinCount, tins]
  rfl

/-! ### The claim that is released -/

section
variable (h : Handle)

/-- With no burst in progress nothing stays reserved (R55). -/
theorem keepBursts_none (none : ∀ i, s.burstOf h i = 0) (i : Nat) (cs : List Component) :
    s.keepBursts h i cs = cs.map fun c => { c with reserved := 0 } := by
  induction cs generalizing i with
  | nil => rfl
  | cons c cs ih => rw [State.keepBursts, ih, none, Nat.min_zero]; rfl

/-- Each component keeps the count of its burst (R55). -/
theorem keepBursts_eq (i : Nat) (cs : List Component) : s.keepBursts h i cs =
    cs.mapIdx fun (k : Nat) (c : Component) => { c with reserved := min c.reserved (s.burstOf h (i + k)) } := by
  induction cs generalizing i with
  | nil => rfl
  | cons c cs ih =>
    rw [State.keepBursts, ih, List.mapIdx_cons]
    simp only [Nat.add_zero, Nat.add_right_comm, Nat.add_assoc]

/-- The positions whose walk a CANCEL starts, in component order (R49, R55). -/
theorem releasedPositions_eq (listed : Option Pos) (i : Nat) (cs : List Component) :
    s.releasedPositions h listed i cs =
      ((cs.zipIdx i).filter fun x : Component × Nat =>
        decide (s.burstOf h x.2 < x.1.reserved) || listed == some x.1.pos).map fun x => x.1.pos := by
  induction cs generalizing i with
  | nil => rfl
  | cons c cs ih =>
    have lower : min c.reserved (s.burstOf h i) < c.reserved ↔ s.burstOf h i < c.reserved := by omega
    rw [State.releasedPositions, ih, List.zipIdx_cons, List.filter_cons]
    simp only [lower]
    split <;> rfl

theorem releasedPositions_none (none : ∀ i, s.burstOf h i = 0) (listed : Option Pos) (i : Nat) (cs : List Component) :
    s.releasedPositions h listed i cs =
      (cs.filter fun c => decide (0 < c.reserved) || listed == some c.pos).map fun c => c.pos := by
  induction cs generalizing i with
  | nil => rfl
  | cons c cs ih =>
    rw [State.releasedPositions, ih, none, Nat.min_zero, List.filter_cons]
    split <;> rfl

end

theorem burstOf_congr {u : State} (tin : u.tin = s.tin) (channels : u.channels = s.channels) (i : Nat) :
    u.burstOf h i = s.burstOf h i := by
  have station : u.atStation h = s.atStation h := by simp only [State.atStation, tin]
  have chan (d : ChanId) : u.chan d = s.chan d := chan_congr channels d
  simp only [State.burstOf, station, State.findChan, chan]

/-- A job has no burst in progress where its tin is not at the station or no channel bursts. -/
theorem burstOf_none (quiet : ∀ t, s.tin = some t → t.handle ≠ h ∨ ∀ d, (s.chan d).state ≠ .burst) (i : Nat) :
    s.burstOf h i = 0 := by
  unfold State.burstOf
  split
  · next here =>
    have calm : ∀ d, (s.chan d).state ≠ .burst := by
      unfold State.atStation at here
      split at here
      · next t tin => exact (quiet t tin).resolve_left fun other => other (beq_iff_eq.1 here)
      · cases here
    have none : s.findChan (fun c => c.state == .burst && c.comp == i) = none :=
      List.find?_eq_none.2 fun d _ => by simp [calm d]
    rw [none]
  · rfl

/-- The one wait list a job stands on (R48). -/
theorem waitPos?_beq (once : ∀ q r, h ∈ s.waitList q → h ∈ s.waitList r → q = r) (q : Pos) :
    (s.waitPos? h == some q) = (s.waitList q).contains h := by
  rw [Bool.eq_iff_iff, beq_iff_eq, List.contains_iff_mem]
  constructor
  · intro found
    simpa using List.find?_some found
  · intro listed
    cases found : s.waitPos? h with
    | none => exact absurd (List.find?_eq_none.1 found q (List.mem_finRange q)) (by simpa using listed)
    | some r =>
      have there : h ∈ s.waitList r := by simpa using List.find?_some found
      rw [once r q there listed]

/-! ### What the job leaves -/

/-- The part when a cancelled job has left the queue, a standing call and every wait list (R74, R92). -/
def departed (s : State) (h : Handle) : State := ((s.leaveQueue h).dropCall h).leaveWaits h

theorem departed_called (called : s.called h = true) : departed s h = { s with
    queue := s.queue.filter (· != h), quota := if s.queue.head? = some h then 0 else s.quota
    waits := mapVec (fun l : List Handle => l.filter (· != h)) s.waits
    call := none, callTimer := none, station := .idle } := by
  have drop : (s.leaveQueue h).dropCall h = (s.leaveQueue h).withdrawCall := if_pos called
  rw [departed, drop, leaveQueue_eq]
  rfl

theorem departed_uncalled (called : ¬ s.called h = true) : departed s h = { s with
    queue := s.queue.filter (· != h), quota := if s.queue.head? = some h then 0 else s.quota
    waits := mapVec (fun l : List Handle => l.filter (· != h)) s.waits } := by
  have drop : (s.leaveQueue h).dropCall h = s.leaveQueue h := if_neg called
  rw [departed, drop, leaveQueue_eq]
  rfl

/-- Leaving touches neither the tins nor the channels. -/
theorem departed_rest (s : State) (h : Handle) : (departed s h).tin = s.tin ∧ (departed s h).channels = s.channels ∧
    (departed s h).tins = s.tins ∧ ((departed s h).station = s.station ∨ (departed s h).station = .idle) := by
  by_cases called : s.called h = true
  · rw [departed_called called]; exact ⟨rfl, rfl, rfl, .inr rfl⟩
  · rw [departed_uncalled called]; exact ⟨rfl, rfl, rfl, .inl rfl⟩

theorem putJob_departed (s : State) (h : Handle) (k : Job) : departed (s.putJob h k) h = (departed s h).putJob h k := by
  by_cases called : s.called h = true
  · rw [departed_called called, departed_called (s := s.putJob h k) called]; rfl
  · rw [departed_uncalled called, departed_uncalled (s := s.putJob h k) called]; rfl

/-- A cancelled job with its claim released (R55, R65, R74). -/
def released (s : State) (h : Handle) (j : Job) : Job :=
  { j with
    pendingRe := none, comps := s.keepBursts h 0 j.comps
    results := j.results.map fun e => if e.outcome = .pending then { e with outcome := .notMade } else e }

/-- A cancelled job's record in the state CANCEL leaves it in. -/
def ended (k : Job) (st : JobState) : Job := { k with state := st, cause := none }

theorem keepBursts_congr {u : State} (same : ∀ i, u.burstOf h i = s.burstOf h i) (i : Nat) (cs : List Component) :
    u.keepBursts h i cs = s.keepBursts h i cs := by
  rw [keepBursts_eq, keepBursts_eq]
  simp only [same]

theorem notMade_eq (j : Job) : j.notMade = { j with
    results := j.results.map fun e => if e.outcome = .pending then { e with outcome := .notMade } else e } := by
  simp only [Job.notMade, beq_iff_eq]

/-- The steps of a CANCEL before the station tin's (R74). -/
theorem cancelWork_eq (job : s.job? h = some j) :
    s.cancelWork h = ((departed s h).putJob h (released s h j)).dropTin h := by
  obtain ⟨tin, channels, -, -⟩ := departed_rest s h
  have left : ((s.putJob h j.notMade).leaveQueue h).dropCall h =
      (((s.leaveQueue h).dropCall h).putJob h j.notMade) := by
    unfold State.dropCall
    rw [apply_ite (State.putJob · h j.notMade)]
    rfl
  have bursts (i : Nat) : (((s.leaveQueue h).dropCall h).putJob h j.notMade).burstOf h i = s.burstOf h i :=
    burstOf_congr tin channels i
  unfold State.cancelWork State.releaseClaim
  rw [modJob_eq job, left, modJob_eq (s := (((s.leaveQueue h).dropCall h).putJob h j.notMade).leaveWaits h)
    (job?_putJob ((s.leaveQueue h).dropCall h) h j.notMade), keepBursts_congr bursts, notMade_eq]
  exact congrArg (State.dropTin · h) (putJob_putJob (departed s h) h _ _)

/-! ### The taking of a CANCEL -/

section
variable (job : s.job? h = some j) (own : j.owner = p) (valid : 1 ≤ h.gen) (gen : h.gen ≤ 255)
  (ht : s.Takes p .cancel tag (handleBody h)) (hp : p ≠ .w)
  (live : j.state ∉ [JobState.cancelling, .done, .cancelled])
include job own valid gen ht hp live

/-- What follows the release and the station tin's turning: `k` is the job's record, and `n` its tins on the line. -/
theorem exec_cancel_ok {t w : State} {k : Job} {n : Nat} {st : JobState} {walks : List Pos}
    (work : (s.popHold p).cancelWork h = t) (named : t.job? h = some k) (owner : k.owner = p) (tins : t.tinCount h = n)
    (state : (if n = 0 then .cancelled else .cancelling) = st) (record : t.putJob h (ended k st) = w)
    (starts : (s.popHold p).releasedPositions h ((s.popHold p).waitPos? h) 0 j.comps = walks) :
    exec (.cancel p tag (handleBody h)) s = .next
      ((((((w.notify p (.jobState h st .cancelled)).examinePark).walkAll walks).selectAfter
        (s.popHold p))).answered p .cancel tag
          [codeJobState st, byte (j.results.filter fun e : TinResult => e.outcome == .pending).length, byte n]) := by
  have popped : (s.popHold p).job? h = some j := job
  have leaves : t.cancelState h = st := by rw [State.cancelState, tins, state]
  have writes : t.modJob h (fun k => { k with state := st, cause := none }) = w := (modJob_eq named _).trans record
  have tells : w.notifyJob h .cancelled = w.notify p (.jobState h st .cancelled) := by
    rw [← record, notifyJob_eq (job?_putJob t h (ended k st))]
    exact congrArg (fun q => (t.putJob h (ended k st)).notify q (.jobState h st .cancelled)) owner
  refine exec_handle_ok job own valid gen ht (admits_cancel hp) (exec_cancel p tag s) ((cancellable_iff _).2 live) ?_
  rw [cancelEffect, handleOf_handleBody gen, popped]
  simp only [State.cancelJob, work, leaves, writes, tells, tins, starts]
  rfl

end

end Sys2Proof.JobRequests
end

section
/-! CANCEL with no undecided tin at the station (R55, R74, R75, R92), and the statement O34. -/

namespace Sys2Proof.JobRequests

open Sys2Proof Sys2Proof.Machine Sys2Proof.Submit Sys2Proof.Requests Sys2Proof.Stock

variable {s : State} {h : Handle}

/-- A tin of another job, or one that is decided, stays as it stands. -/
theorem dropTin_stays (stays : ∀ t, s.tin = some t → t.handle ≠ h ∨ s.undecided t = false) : s.dropTin h = s := by
  unfold State.dropTin
  split
  · next t tin =>
    refine if_neg fun ⟨here, undecided⟩ => ?_
    rcases stays t tin with other | decided
    · exact other here
    · rw [decided] at undecided; cases undecided
  · rfl

/-- A tin on route REJECT, in HANDOFF, or at a station that holds none is decided (R75). -/
theorem undecided_false {t : TinCtx} (decided : t.route = .reject ∨ s.station = .handoff ∨ s.station = .idle) :
    s.undecided t = false := by
  rcases decided with route | station | station
  · simp [State.undecided, route]
  · simp [State.undecided, station]
  · simp [State.undecided, station]

/-- Settles O34: the job departs and its claim is released, and the station tin is no matter of this CANCEL. -/
theorem cancelReleasesAJob : Obligations.CancelReleasesAJob := by
  refine ⟨fun s p tag hp => checksHandle (admits_cancel hp) (exec_cancel p tag s),
    fun s h => ⟨called_iff s h, tinCount_eq s h⟩, fun s p tag h j hp job own valid gen ht =>
      ⟨fun final => ?_, fun live decided once => ?_⟩⟩
  · refine exec_handle_state job own valid gen ht (admits_cancel hp) (exec_cancel p tag s) ?_
    rw [← Bool.not_eq_true, cancellable_iff]
    exact not_not_intro final
  · intro st u v w
    have still (i : Nat) : (s.popHold p).burstOf h i = 0 :=
      burstOf_none (s := s.popHold p) (fun t tin => (decided t tin).imp_right fun both => both.2) i
    obtain ⟨tin, -, tins, station⟩ := departed_rest (s.popHold p) h
    have work : (s.popHold p).cancelWork h =
        (departed (s.popHold p) h).putJob h (released (s.popHold p) h j) := by
      refine (cancelWork_eq (s := s.popHold p) job).trans (dropTin_stays fun t ht => ?_)
      rcases decided t (tin.symm.trans ht) with other | ⟨route | handoff, -⟩
      · exact .inl other
      · exact .inr (undecided_false (.inl route))
      · exact .inr (undecided_false (.inr (station.imp_left fun same => same.trans handoff)))
    have walks : (s.popHold p).releasedPositions h ((s.popHold p).waitPos? h) 0 j.comps =
        (j.comps.filter fun c => decide (0 < c.reserved) || (s.waitList c.pos).contains h).map fun c => c.pos := by
      rw [releasedPositions_none h still]
      simp only [waitPos?_beq (s := s.popHold p) once]
      rfl
    have count : ((departed (s.popHold p) h).putJob h (released (s.popHold p) h j)).tinCount h = s.tinCount h :=
      tinCount_congr tins
    have record : ((departed (s.popHold p) h).putJob h (released (s.popHold p) h j)).putJob h
        (ended (released (s.popHold p) h j) st) = w := by
      rw [putJob_putJob, ← putJob_departed, released, keepBursts_none h still]
      by_cases called : s.called h = true
      · exact (departed_called (s := u) called).trans (if_pos called).symm
      · exact (departed_uncalled (s := u) called).trans (if_neg called).symm
    exact exec_cancel_ok job own valid gen ht hp live work (job?_putJob _ _ _) own count rfl record walks

end Sys2Proof.JobRequests
end

section
/-! The lidder's take (R138) beside a job's record: the take reads of a job only what its label and its lane show, so it
is the same before and after a change of the job's state; and it leaves the number of a job's tins on the line. -/

namespace Sys2Proof.JobRequests

open Sys2Proof Sys2Proof.Machine Sys2Proof.Submit Sys2Proof.Stock

variable {s : State} {h : Handle} {j k m : Job} {t : TinCtx} {src : Source} {rest : List Source}

/-! ### The take -/

/-- The lidder takes the tin `t` of its head claimant, whose job is `j` (R138). -/
structure HeadClaim (s : State) (src : Source) (rest : List Source) (t : TinCtx) (j : Job) : Prop where
  idle : s.lidder.state = .idle
  running : s.halted = false
  claims : s.lidder.claims = src :: rest
  tin : s.sourceTin src = some t
  job : s.job? t.handle = some j

/-- The lidder with the tin it has taken, its source not yet released (R138). -/
def takenTin (s : State) (rest : List Source) (t : TinCtx) (j : Job) : State :=
  ({ s with
    lidder :=
      { state := .lidding, tin := some { t with stage := .lidding }, label := some (buildLabel j t)
        dest := some (destLane j t), cmdOut := true, claims := rest } }).send (.lidStart (buildLabel j t))

theorem examineLidder_takes (c : HeadClaim s src rest t j) :
    s.examineLidder = (takenTin s rest t j).releaseSource src := by
  simp only [State.examineLidder, c.idle, c.running, c.claims, c.tin, c.job]
  rfl

theorem examineLidder_stays (none : ∀ src rest t j, ¬ HeadClaim s src rest t j) : s.examineLidder = s := by
  unfold State.examineLidder
  split
  · next ready =>
    simp only [Bool.and_eq_true, beq_iff_eq, Bool.not_eq_true'] at ready
    split
    · rfl
    · next src rest claims =>
      split
      · rfl
      · next t tin =>
        split
        · rfl
        · next j job => exact absurd ⟨ready.1, ready.2, claims, tin, job⟩ (none src rest t j)
  · rfl

/-! ### The take beside a job's record -/

/-- Two records that the lidder reads alike (R138, R139). -/
def Alike (k m : Job) : Prop := ∀ t, buildLabel k t = buildLabel m t ∧ destLane k t = destLane m t

theorem alike_refl (k : Job) : Alike k k := fun _ => ⟨rfl, rfl⟩

/-- A change of a job's state and cause shows on no label. -/
theorem alike_ended (k : Job) (st : JobState) : Alike k (ended k st) := fun _ => ⟨rfl, rfl⟩

theorem alike_symm (alike : Alike k m) : Alike m k := fun t => ⟨(alike t).1.symm, (alike t).2.symm⟩

/-- A slot names no other handle than its job's. -/
theorem job?_putJob_other {g : Handle} (other : g ≠ h) (k m : Job) :
    (s.putJob h k).job? g = (s.putJob h m).job? g := by
  unfold State.job? State.putJob
  simp only [slot_setSlot]
  by_cases slot : h.slot = g.slot
  · have gen : h.gen ≠ g.gen := fun gen => other (by cases g; cases h; simp_all)
    simp [slot, gen]
  · simp [slot]

theorem headClaim_putJob (alike : Alike k m) (c : HeadClaim (s.putJob h k) src rest t j) :
    ∃ i, HeadClaim (s.putJob h m) src rest t i ∧ Alike j i := by
  by_cases here : t.handle = h
  · have same : k = j := Option.some.inj ((job?_putJob s h k).symm.trans (here ▸ c.job))
    exact ⟨m, ⟨c.idle, c.running, c.claims, by cases src <;> exact c.tin, here ▸ job?_putJob s h m⟩, same ▸ alike⟩
  · exact ⟨j, ⟨c.idle, c.running, c.claims, by cases src <;> exact c.tin,
      (job?_putJob_other here m k).trans c.job⟩, alike_refl j⟩

theorem putJob_setMode (s : State) (mode : LineMode) (h : Handle) (k : Job) :
    (s.setMode mode).putJob h k = (s.putJob h k).setMode mode := rfl

/-- The park condition is the same whatever the state of a job that has left the queue (R148). -/
theorem examinePark_putJob (absent : h ∉ s.queue) (k m : Job) :
    (s.putJob h k).examinePark.putJob h m = (s.putJob h m).examinePark := by
  have same : (s.putJob h k).parkCondition = (s.putJob h m).parkCondition := by
    have queue : ∀ g ∈ s.queue, (s.putJob h k).job? g = (s.putJob h m).job? g := fun g hg =>
      job?_putJob_other (fun e : g = h => absent (e ▸ hg)) k m
    unfold State.parkCondition
    refine congrArg₂ and rfl ?_
    rw [Bool.eq_iff_iff, List.all_eq_true, List.all_eq_true]
    exact forall₂_congr fun g hg => by rw [queue g hg]
  unfold State.examinePark
  rw [same, apply_ite (State.putJob · h m), putJob_setMode, putJob_putJob]
  rfl

theorem putJob_examineTransfer (s : State) (h : Handle) (k : Job) :
    s.examineTransfer.putJob h k = (s.putJob h k).examineTransfer := by
  have tin : (s.putJob h k).tin = s.tin := rfl
  unfold State.examineTransfer
  rw [tin]
  cases s.tin with
  | none => rfl
  | some t =>
    dsimp only
    rw [apply_ite (State.putJob · h k), apply_ite (State.putJob · h k), apply_ite (State.putJob · h k)]
    rfl

theorem releaseSource_putJob (absent : h ∉ s.queue) (src : Source) (k m : Job) :
    ((s.putJob h k).releaseSource src).putJob h m = (s.putJob h m).releaseSource src := by
  cases src with
  | m1 =>
    refine (putJob_examineTransfer _ h m).trans (congrArg State.examineTransfer ?_)
    exact putJob_putJob (s.setMixer .m1 Mixer.idle) h k m
  | m2 =>
    refine (putJob_examineTransfer _ h m).trans (congrArg State.examineTransfer ?_)
    exact putJob_putJob (s.setMixer .m2 Mixer.idle) h k m
  | station => exact examinePark_putJob (s := { s with station := .idle, tin := none }) absent k m

/-- The lidder's take, and then a change of a record it reads alike: the same as the change before the take. -/
theorem examineLidder_putJob (absent : h ∉ s.queue) (alike : Alike k m) :
    (s.putJob h k).examineLidder.putJob h m = (s.putJob h m).examineLidder := by
  by_cases claim : ∃ src rest t j, HeadClaim (s.putJob h k) src rest t j
  · obtain ⟨src, rest, t, j, c⟩ := claim
    obtain ⟨i, d, same⟩ := headClaim_putJob alike c
    have label : takenTin s rest t j = takenTin s rest t i := by simp only [takenTin, (same t).1, (same t).2]
    rw [examineLidder_takes c, examineLidder_takes d]
    refine (releaseSource_putJob (s := takenTin s rest t j) absent src k m).trans ?_
    rw [label]
    rfl
  · have none (src rest t j) : ¬ HeadClaim (s.putJob h m) src rest t j := fun c => by
      obtain ⟨i, d, -⟩ := headClaim_putJob (alike_symm alike) c
      exact claim ⟨src, rest, t, i, d⟩
    rw [examineLidder_stays none, examineLidder_stays fun src rest t j c => claim ⟨src, rest, t, j, c⟩, putJob_putJob]

/-- The take leaves the record of a job that has left the queue. -/
theorem job?_examineLidder (absent : h ∉ s.queue) (k : Job) : (s.putJob h k).examineLidder.job? h = some k := by
  rw [← examineLidder_putJob absent (alike_refl k)]
  exact job?_putJob _ _ _

/-! ### The take and the tins on the line -/

/-- A place on the line holds a tin of the job. -/
def holds (h : Handle) (o : Option TinCtx) : Nat := if o.any (fun t => t.handle == h) then 1 else 0

/-- The job's tins, place by place. -/
theorem tinCount_places (s : State) (h : Handle) : s.tinCount h =
    holds h s.tin + holds h s.m1.tin + holds h s.m2.tin + holds h s.lidder.tin := by
  have places (l : List (Option TinCtx)) :
      ((l.filterMap id).filter fun t : TinCtx => t.handle == h).length = (l.map (holds h)).sum := by
    induction l with
    | nil => rfl
    | cons o l ih =>
      rw [List.map_cons, List.sum_cons, ← ih]
      cases o with
      | none => simp [holds]
      | some t =>
        simp only [List.filterMap_cons, id, List.filter_cons, holds, Option.any_some]
        split <;> simp [Nat.add_comm]
  rw [tinCount_eq, places]
  simp [Nat.add_assoc]

theorem tins_examineTransfer (s : State) : s.examineTransfer.tins = s.tins := by
  unfold State.examineTransfer
  split
  · rfl
  · split
    · split
      · rfl
      · split <;> rfl
    · rfl

theorem tins_examinePark (s : State) : s.examinePark.tins = s.tins := by
  unfold State.examinePark
  split <;> rfl

/-- A source whose tin the lidder holds gives it up. -/
theorem tinCount_releaseSource (src : Source) (tin : s.sourceTin src = some t) :
    (s.releaseSource src).tinCount h + holds h (some t) = s.tinCount h := by
  have whole := tinCount_places s h
  cases src with
  | m1 =>
    have here : s.m1.tin = some t := tin
    have given : (s.releaseSource .m1).tinCount h = holds h s.tin + 0 + holds h s.m2.tin + holds h s.lidder.tin := by
      rw [State.releaseSource, tinCount_congr (tins_examineTransfer _), tinCount_places]
      rfl
    rw [here] at whole
    omega
  | m2 =>
    have here : s.m2.tin = some t := tin
    have given : (s.releaseSource .m2).tinCount h = holds h s.tin + holds h s.m1.tin + 0 + holds h s.lidder.tin := by
      rw [State.releaseSource, tinCount_congr (tins_examineTransfer _), tinCount_places]
      rfl
    rw [here] at whole
    omega
  | station =>
    have here : s.tin = some t := tin
    have given : (s.releaseSource .station).tinCount h =
        0 + holds h s.m1.tin + holds h s.m2.tin + holds h s.lidder.tin := by
      rw [State.releaseSource, State.stationLeaves, tinCount_congr (tins_examinePark _), tinCount_places]
      rfl
    rw [here] at whole
    omega

/-- The take moves a tin of the line to an empty lidder. -/
theorem tinCount_examineLidder (empty : s.lidder.state = .idle → s.lidder.tin = none) :
    s.examineLidder.tinCount h = s.tinCount h := by
  by_cases claim : ∃ src rest t j, HeadClaim s src rest t j
  · obtain ⟨src, rest, t, j, c⟩ := claim
    have tin : (takenTin s rest t j).sourceTin src = some t := by
      rw [← c.tin]
      cases src <;> rfl
    have given := tinCount_releaseSource (h := h) src tin
    have moved : (takenTin s rest t j).tinCount h = s.tinCount h + holds h (some t) := by
      rw [tinCount_places, tinCount_places, empty c.idle]
      rfl
    rw [examineLidder_takes c]
    omega
  · rw [examineLidder_stays fun src rest t j c => claim ⟨src, rest, t, j, c⟩]

end Sys2Proof.JobRequests
end

section
/-! CANCEL of a job whose undecided tin stands at the station (R75, R112, R113, R137), and the statement O35. -/

namespace Sys2Proof.JobRequests

open Sys2Proof Sys2Proof.Machine Sys2Proof.Submit Sys2Proof.Requests Sys2Proof.Stock Sys2Proof.Bursts

variable {s : State} {t : TinCtx} {h : Handle}

/-! ### The tin turned to REJECT -/

/-- The tin of a cancelled job (R113). -/
def turned (t : TinCtx) : TinCtx := { t with route := .reject, word := some .reject, stop := .cancel }

/-- The part when the turned tin has entered HANDOFF and claims the lidder (R112, R137). -/
def claiming (s : State) (t : TinCtx) : State :=
  { s with
    capture := .none, scaleTimer := none, station := .handoff, tin := some { turned t with stage := .lidWait }
    lidder := { s.lidder with claims := s.lidder.claims ++ [Source.station] } }

theorem modTin_turned (tin : s.tin = some t) :
    ((s.stopCapture).modTin fun t => { t with route := .reject, word := some .reject, stop := .cancel }) =
      { s with capture := .none, scaleTimer := none, tin := some (turned t) } := by
  rw [State.modTin, State.stopCapture]
  dsimp only
  rw [tin]
  rfl

/-- The part when the turned tin stays in DISPENSING, its bursts running on (R113). -/
def staying (s : State) (t : TinCtx) : State :=
  { s with
    capture := .none, scaleTimer := none, tin := some (turned t), channels := mapVec Channel.atCancel s.channels }

/-- From TARING, DRIP or WEIGHING the gate shuts and the tin goes to HANDOFF (R113). -/
theorem cancelTin_gate (tin : s.tin = some t) (station : s.station ∈ [StationState.taring, .drip, .weighing])
    (fresh : Source.station ∉ s.lidder.claims) :
    s.cancelTin = (claiming { s with gateOpen := false, dripTimer := none } t).examineLidder := by
  have goes : s.cancelTin = State.handoffReject { s with
      capture := .none, scaleTimer := none, tin := some (turned t), gateOpen := false, dripTimer := none } := by
    unfold State.cancelTin
    rw [modTin_turned tin]
    simp only [List.mem_cons, List.not_mem_nil, or_false] at station
    rcases station with at_ | at_ | at_ <;> rw [at_]
  exact goes.trans (handoffReject_eq rfl fresh)

theorem atCancel_eq (c : Channel) : c.atCancel =
    if c.state ∈ [ChanState.waitRecirc, .waitCharge, .dwell] then { c with state := .done, dwellTimer := none }
    else c := by
  unfold Channel.atCancel
  cases c.state <;> rfl

theorem cancelTin_dispensing (tin : s.tin = some t) (station : s.station = .dispensing) :
    s.cancelTin = (staying s t).endDispensing := by
  unfold State.cancelTin
  rw [modTin_turned tin]
  dsimp only
  split
  · rfl
  · next other => exact absurd station other

/-- A channel is at work after a CANCEL exactly where a burst is in progress (R113). -/
theorem working_atCancel (c : Channel) : c.atCancel.state.working = (c.state == .burst) := by
  obtain ⟨comp, pos, remaining, burst, state, timer⟩ := c
  cases state <;> rfl

theorem anyWorking_staying : (staying s t).anyWorking = true ↔ ∃ d, (s.chan d).state = .burst := by
  have chan (d : ChanId) : (staying s t).chan d = (s.chan d).atCancel := mapVec_getFin _ s.channels d
  rw [State.anyWorking, exists_chan]
  simp only [chan, working_atCancel, beq_iff_eq]

/-- From DISPENSING with no burst in progress the tin goes to HANDOFF (R113). -/
theorem cancelTin_ends (tin : s.tin = some t) (station : s.station = .dispensing)
    (still : ∀ d, (s.chan d).state ≠ .burst) (fresh : Source.station ∉ s.lidder.claims) :
    s.cancelTin = (claiming { s with channels := Vector.replicate 4 Channel.free } t).examineLidder := by
  have quiet : (staying s t).anyWorking = false := by
    rw [← Bool.not_eq_true, anyWorking_staying]
    exact fun ⟨d, burst⟩ => still d burst
  exact (cancelTin_dispensing tin station).trans (endDispensing_cancelled rfl rfl rfl station quiet fresh)

/-- With a burst in progress the tin stays until its report (R55, R113). -/
theorem cancelTin_bursts (tin : s.tin = some t) (station : s.station = .dispensing)
    (bursts : ∃ d, (s.chan d).state = .burst) :
    s.cancelTin = staying s t :=
  (cancelTin_dispensing tin station).trans (endDispensing_busy (anyWorking_staying.2 bursts))

/-! ### The work of the CANCEL -/

/-- A job on no wait list leaves them as they are. -/
theorem waits_unlisted (unlisted : ∀ q, h ∉ s.waitList q) :
    mapVec (fun l : List Handle => l.filter (· != h)) s.waits = s.waits := by
  ext i hi : 1
  rw [mapVec_getElem, List.filter_eq_self]
  exact fun g hg => bne_iff_ne.2 fun e => unlisted ⟨i, hi⟩ (e ▸ hg)

/-- The record of a cancelled job whose attempt no longer counts as started (R75). -/
def abandoned (s : State) (h : Handle) (j : Job) : Job :=
  { released s h j with started := j.started - 1 }

/-- The part when a job with no call and on no wait list has left the queue. -/
def unqueued (s : State) (h : Handle) : State :=
  { s with queue := s.queue.filter (· != h), quota := if s.queue.head? = some h then 0 else s.quota }

theorem absent_unqueued (s : State) (h : Handle) : h ∉ (unqueued s h).queue := by
  simp [unqueued]

theorem cancelWork_turns {j : Job} (job : s.job? h = some j) (tin : s.tin = some t) (here : t.handle = h)
    (undecided : s.undecided t = true) (uncalled : s.call = none) (unlisted : ∀ q, h ∉ s.waitList q) :
    s.cancelWork h = ((unqueued s h).putJob h (abandoned s h j)).cancelTin := by
  have called : ¬ s.called h = true := by simp [State.called, uncalled]
  have left : departed s h = unqueued s h := by rw [departed_uncalled called, waits_unlisted unlisted]; rfl
  have tin' : ((unqueued s h).putJob h (released s h j)).tin = some t := tin
  rw [cancelWork_eq job, left, State.dropTin, tin']
  dsimp only
  rw [if_pos ⟨here, undecided⟩, modJob_eq (job?_putJob _ _ _), putJob_putJob]
  rfl

/-- The bursts in progress for a job whose tin is at the station. -/
theorem burstOf_here (tin : s.tin = some t) (here : t.handle = h) (i : Nat) : s.burstOf h i =
    match allChans.find? fun d => (s.chan d).state == .burst && (s.chan d).comp == i with
    | some d => (s.chan d).burst.getD 0
    | none => 0 := by
  have station : s.atStation h = true := by simp [State.atStation, tin, here]
  rw [State.burstOf, if_pos station]
  rfl

theorem waitPos?_none (unlisted : ∀ q, h ∉ s.waitList q) : s.waitPos? h = none :=
  List.find?_eq_none.2 fun q _ => by simpa using unlisted q

theorem undecided_true (route : t.route = .normal)
    (station : s.station ∈ [StationState.taring, .drip, .weighing] ∨ s.station = .dispensing) :
    s.undecided t = true := by
  simp only [List.mem_cons, List.not_mem_nil, or_false] at station
  rcases station with (e | e | e) | e <;> simp [State.undecided, route, e]

theorem tinCount_pos (tin : s.tin = some t) (here : t.handle = h) : s.tinCount h ≠ 0 := by
  have place : holds h s.tin = 1 := by rw [tin]; exact if_pos (beq_iff_eq.2 here)
  have count := tinCount_places s h
  omega

/-- With no burst in progress an abandoned job keeps nothing reserved (R55). -/
theorem abandoned_calm (calm : ∀ i, s.burstOf h i = 0) (j : Job) : abandoned s h j =
    { j with
      pendingRe := none, started := j.started - 1, comps := j.comps.map fun c => { c with reserved := 0 }
      results := j.results.map fun e => if e.outcome = .pending then { e with outcome := .notMade } else e } := by
  rw [abandoned, released, keepBursts_none h calm]

/-! ### The two outcomes -/

section
variable {p : Port} {tag : Byte} {j : Job} (job : s.job? h = some j) (own : j.owner = p) (valid : 1 ≤ h.gen)
  (gen : h.gen ≤ 255) (ht : s.Takes p .cancel tag (handleBody h)) (hp : p ≠ .w)
  (live : j.state ∉ [JobState.cancelling, .done, .cancelled]) (tin : s.tin = some t) (here : t.handle = h)
  (undecided : s.undecided t = true) (uncalled : s.call = none) (unlisted : ∀ q, h ∉ s.waitList q)
include job own valid gen ht hp live tin here undecided uncalled unlisted

/-- The tin goes to HANDOFF: the lidder's take is the same before and after the job is CANCELLING, and leaves the job's
tins on the line. `v` is the part as the station's phase leaves it. -/
theorem exec_cancel_claims {v : State} (calm : ∀ i, (s.popHold p).burstOf h i = 0)
    (empty : s.lidder.state = .idle → s.lidder.tin = none) (queue : v.queue = (unqueued s h).queue)
    (mixers : v.m1 = s.m1 ∧ v.m2 = s.m2) (lidder : v.lidder = s.lidder)
    (turns : ((unqueued (s.popHold p) h).putJob h (abandoned (s.popHold p) h j)).cancelTin =
      ((claiming v t).putJob h (abandoned (s.popHold p) h j)).examineLidder) :
    exec (.cancel p tag (handleBody h)) s = .next
      ((((((((claiming v t).putJob h (ended (abandoned (s.popHold p) h j) .cancelling)).examineLidder.notify p
        (.jobState h .cancelling .cancelled)).examinePark).walkAll
          ((j.comps.filter fun c : Component => decide (0 < c.reserved)).map fun c : Component => c.pos)).selectAfter
            (s.popHold p))).answered p .cancel tag
              [5, byte (j.results.filter fun e : TinResult => e.outcome == .pending).length, byte (s.tinCount h)]) := by
  have work := cancelWork_turns (s := s.popHold p) job tin here undecided uncalled unlisted
  have absent : h ∉ (claiming v t).queue := by
    rw [show (claiming v t).queue = v.queue from rfl, queue]
    exact absent_unqueued s h
  have count : ((claiming v t).putJob h (abandoned (s.popHold p) h j)).examineLidder.tinCount h = s.tinCount h := by
    have idle : (claiming v t).lidder.state = .idle → (claiming v t).lidder.tin = none := by
      simp only [claiming, lidder]
      exact empty
    rw [tinCount_examineLidder (s := (claiming v t).putJob h _) idle, tinCount_places, tinCount_places, tin]
    simp only [claiming, lidder, mixers, State.putJob, State.setSlot]
    rfl
  have walks : (s.popHold p).releasedPositions h ((s.popHold p).waitPos? h) 0 j.comps =
      (j.comps.filter fun c : Component => decide (0 < c.reserved)).map fun c : Component => c.pos := by
    rw [releasedPositions_none h calm, waitPos?_none (s := s.popHold p) unlisted]
    simp
  exact exec_cancel_ok job own valid gen ht hp live (work.trans turns) (job?_examineLidder absent _) own count
    (if_neg (tinCount_pos tin here)) (examineLidder_putJob absent (alike_ended _ _)) walks

/-- The tin stays in DISPENSING until the last of its bursts is reported (R55, R113). -/
theorem exec_cancel_stays (station : s.station = .dispensing) (bursts : ∃ d, (s.chan d).state = .burst) :
    exec (.cancel p tag (handleBody h)) s = .next
      ((((((((staying (unqueued (s.popHold p) h) t).putJob h (ended (abandoned (s.popHold p) h j) .cancelling)).notify p
        (.jobState h .cancelling .cancelled)).examinePark).walkAll
          ((j.comps.zipIdx.filter fun x : Component × Nat =>
            decide ((s.popHold p).burstOf h x.2 < x.1.reserved)).map fun x : Component × Nat => x.1.pos)).selectAfter
              (s.popHold p))).answered p .cancel tag
                [5, byte (j.results.filter fun e : TinResult => e.outcome == .pending).length, byte (s.tinCount h)]) := by
  have work := cancelWork_turns (s := s.popHold p) job tin here undecided uncalled unlisted
  have turns := cancelTin_bursts (s := (unqueued (s.popHold p) h).putJob h (abandoned (s.popHold p) h j)) tin station
    bursts
  have count : (staying ((unqueued (s.popHold p) h).putJob h (abandoned (s.popHold p) h j)) t).tinCount h =
      s.tinCount h := by
    rw [tinCount_places, tinCount_places, tin]
    rfl
  have walks : (s.popHold p).releasedPositions h ((s.popHold p).waitPos? h) 0 j.comps =
      (j.comps.zipIdx.filter fun x : Component × Nat =>
        decide ((s.popHold p).burstOf h x.2 < x.1.reserved)).map fun x : Component × Nat => x.1.pos := by
    rw [releasedPositions_eq, waitPos?_none (s := s.popHold p) unlisted]
    simp
  exact exec_cancel_ok job own valid gen ht hp live (work.trans turns) (job?_putJob _ _ _) own count
    (if_neg (tinCount_pos tin here)) (putJob_putJob (staying (unqueued (s.popHold p) h) t) h _ _) walks

end

/-- Settles O35: with no burst in progress the turned tin claims the lidder, and with one it stays where it is. -/
theorem cancelTurnsTheStationTin : Obligations.CancelTurnsTheStationTin := by
  intro s p tag j t hp tin job own live valid gen ht route uncalled unlisted h i n gone u turned leaves burst
  refine ⟨fun still fresh empty => ?_, fun station bursts => ?_⟩
  · have calm (i : Nat) : (s.popHold p).burstOf h i = 0 :=
      burstOf_none (s := s.popHold p) (fun _ _ => .inr still) i
    have goes {v : State} (undecided : s.undecided t = true) :=
      exec_cancel_claims (v := v) job own valid gen ht hp live tin rfl undecided uncalled unlisted calm empty
    rw [abandoned_calm calm] at goes
    refine ⟨fun station => ?_, fun station => ?_⟩
    · exact goes (v := { unqueued (s.popHold p) h with gateOpen := false, dripTimer := none })
        (undecided_true route (.inl station)) rfl ⟨rfl, rfl⟩ rfl (cancelTin_gate tin station fresh)
    · exact goes (v := { unqueued (s.popHold p) h with channels := Vector.replicate 4 Channel.free })
        (undecided_true route (.inr station)) rfl ⟨rfl, rfl⟩ rfl (cancelTin_ends tin station still fresh)
  · have bursting (i : Nat) : (s.popHold p).burstOf t.handle i = burst i := burstOf_here (s := s.popHold p) tin rfl i
    have channels : Channel.atCancel = fun c : Channel =>
        if c.state ∈ [ChanState.waitRecirc, .waitCharge, .dwell] then { c with state := .done, dwellTimer := none }
        else c := funext atCancel_eq
    have stays := exec_cancel_stays job own valid gen ht hp live tin rfl (undecided_true route (.inr station)) uncalled
      unlisted station bursts
    rw [abandoned, released, keepBursts_eq, staying, channels] at stays
    simp only [Nat.zero_add, bursting] at stays
    exact stays

end Sys2Proof.JobRequests
end

section
/-! The class table and its stored copies (R81, R82, R154, R155, R157): what a record written or erased makes of a list of
classes, what every command keeps of the two lists, and the statement O16. -/

namespace Sys2Proof.ClassTable

open Sys2Proof Sys2Proof.Machine

/-! ### Lists of classes -/

/-- At most 12 classes with distinct codes (R81, R154). -/
structure Table (l : List TinClass) : Prop where
  few : l.length ≤ 12
  codes : (l.map fun c => c.code).Nodup

/-- A list of classes after a SET: the class takes the place of the one that bears its code, or joins the list (R82). -/
def putClass (c : TinClass) (l : List TinClass) : List TinClass :=
  if l.any fun x => x.code == c.code then l.map fun x => if x.code == c.code then c else x else l ++ [c]

theorem bears_iff {l : List TinClass} {code : Text} :
    (l.any fun x => x.code == code) = true ↔ code ∈ l.map fun c => c.code := by
  simp only [List.any_eq_true, beq_iff_eq, List.mem_map]

theorem putClass_held {c : TinClass} {l : List TinClass} (held : c.code ∈ l.map fun c => c.code) :
    putClass c l = l.map fun x => if x.code == c.code then c else x := if_pos (bears_iff.2 held)

theorem putClass_new {c : TinClass} {l : List TinClass} (new : c.code ∉ l.map fun c => c.code) :
    putClass c l = l ++ [c] := if_neg (mt bears_iff.1 new)

/-- A replacement keeps every code. -/
theorem codes_replaced (c : TinClass) (l : List TinClass) :
    ((l.map fun x => if x.code == c.code then c else x).map fun x => x.code) = l.map fun x => x.code := by
  rw [List.map_map]
  refine List.map_congr_left fun x _ => ?_
  show (if x.code == c.code then c else x).code = x.code
  split
  · next same => exact (beq_iff_eq.1 same).symm
  · rfl

theorem table_putClass {c : TinClass} {l : List TinClass} (h : Table l)
    (room : c.code ∈ l.map (fun c => c.code) ∨ l.length < 12) : Table (putClass c l) := by
  by_cases held : c.code ∈ l.map fun c => c.code
  · rw [putClass_held held]
    exact ⟨by simpa using h.few, by rw [codes_replaced]; exact h.codes⟩
  · have space : l.length < 12 := room.resolve_left held
    rw [putClass_new held]
    refine ⟨by simpa using space, ?_⟩
    rw [List.map_append, List.map_singleton, ← List.concat_eq_append]
    exact h.codes.concat held

theorem table_filter {l : List TinClass} (h : Table l) (f : TinClass → Bool) : Table (l.filter f) :=
  ⟨(List.length_filter_le f l).trans h.few, h.codes.sublist (List.filter_sublist.map _)⟩

/-! ### The classes of the store -/

/-- The classes of which the store holds a copy (R154). -/
def stored (st : Store) : List TinClass := st.classes.map fun x => x.data

theorem classesOk_iff (s : State) :
    s.ClassesOk ↔ Table (stored s.store) ∧ (s.power ≠ .off → s.classes = stored s.store) := by
  have codes : (stored s.store).map (fun c => c.code) = s.store.classes.map fun x => x.data.code := List.map_map
  constructor
  · rintro ⟨few, distinct, table⟩
    exact ⟨⟨by simpa [stored] using few, codes ▸ distinct⟩, table⟩
  · rintro ⟨⟨few, distinct⟩, table⟩
    exact ⟨by simpa [stored] using few, codes ▸ distinct, table⟩

theorem stored_putClass (st : Store) (c : TinClass) : stored (st.putClass c) = putClass c (stored st) := by
  have any : (stored st).any (fun x => x.code == c.code) = st.classes.any fun x => x.data.code == c.code :=
    List.any_map
  unfold putClass stored Store.putClass at *
  rw [any]
  split
  · rw [List.map_map, List.map_map]
    refine List.map_congr_left fun x _ => ?_
    simp only [Function.comp_apply]
    split <;> rfl
  · rw [List.map_append]; rfl

theorem stored_dropClass (st : Store) (code : Text) :
    stored (st.dropClass code) = (stored st).filter fun c => c.code != code := by
  rw [stored, stored, List.filter_map]; rfl

/-- An incomplete copy still bears its record (R155). -/
theorem stored_breakCopy (st : Store) (writing : Option StoreKey) : stored (st.breakCopy writing) = stored st := by
  rcases writing with _ | p | code | _
  · rfl
  · rfl
  · refine List.map_map.trans (List.map_congr_left fun x _ => ?_)
    simp only [Function.comp_apply]
    split <;> rfl
  · rfl

/-! ### Keeping the law -/

/-- What happened between two states keeps the class table and the store in agreement. -/
def KeepsClasses (s t : State) : Prop := s.ClassesOk → t.ClassesOk

theorem KeepsClasses.refl (s : State) : KeepsClasses s s := id

theorem KeepsClasses.trans {a b c : State} (h : KeepsClasses a b) (k : KeepsClasses b c) : KeepsClasses a c := k ∘ h

/-- Neither list changes, and no part comes to have power. -/
theorem KeepsClasses.of_same {s t : State} (power : t.power ≠ .off → s.power ≠ .off) (table : t.classes = s.classes)
    (store : stored t.store = stored s.store) : KeepsClasses s t := by
  intro h
  rw [classesOk_iff] at h ⊢
  rw [store, table]
  exact ⟨h.1, fun on => h.2 (power on)⟩

theorem KeepsClasses.of_works {s t : State} (w : Works s t) : KeepsClasses s t :=
  .of_same (by rw [w.power]; exact id) w.classes (congrArg (List.map _) w.storeClasses)

/-- Work of the blocks behind a change that leaves both lists. -/
theorem KeepsClasses.then_works {s u t : State} (w : Works u t) (power : u.power = s.power)
    (table : u.classes = s.classes) (store : u.store.classes = s.store.classes) : KeepsClasses s t :=
  .trans (.of_same (by rw [power]; exact id) table (congrArg (List.map _) store)) (.of_works w)

/-- Both lists change alike. -/
theorem KeepsClasses.of_change {s t : State} {f : List TinClass → List TinClass} (on : s.power = .on)
    (table : t.classes = f s.classes) (store : stored t.store = f (stored s.store))
    (keeps : Table s.classes → Table (f s.classes)) : KeepsClasses s t := by
  intro h
  obtain ⟨law, same⟩ := (classesOk_iff s).1 h
  have agreed : s.classes = stored s.store := same (by rw [on]; decide)
  rw [classesOk_iff, table, store, ← agreed]
  exact ⟨keeps (agreed ▸ law), fun _ => rfl⟩

/-! ### Requests -/

section
variable {s : State} {p : Port} {k : ReqKind} {tag : Byte} {body : Bytes} {refusal : State → Option Nak}

/-- A request keeps the law if its effect does, where it is had at all. -/
theorem keeps_take {effect : State → State × Bytes}
    (h : ∀ u, u.power = .on → refusal u = none → KeepsClasses u (effect u).1) :
    KeepsClasses s (s.take p k tag body refusal effect) := by
  have popped : KeepsClasses s (s.popHold p) := .of_same id rfl rfl
  have answered (t : State) (a : Answer) : KeepsClasses t (t.answer p a) := .of_same id rfl rfl
  rcases take_cases p k tag body refusal effect s with e | ⟨-, _, e⟩ | ⟨⟨on, -⟩, passes, e⟩
  · rw [e]; exact .refl s
  · rw [e]; exact .of_same id rfl rfl
  · rw [e]; exact (popped.trans (h _ on passes)).trans (answered _ _)

theorem keeps_take_works {effect : State → State × Bytes} (h : ∀ u, Works u (effect u).1) :
    KeepsClasses s (s.take p k tag body refusal effect) := keeps_take fun u _ _ => .of_works (h u)

/-- A request whose effect leaves both lists and the power. -/
theorem keeps_take_same {effect : State → State × Bytes} (power : ∀ u, (effect u).1.power = u.power)
    (table : ∀ u, (effect u).1.classes = u.classes) (store : ∀ u, (effect u).1.store.classes = u.store.classes) :
    KeepsClasses s (s.take p k tag body refusal effect) :=
  keeps_take fun u _ _ => .of_same (by rw [power]; exact id) (table u) (congrArg (List.map _) (store u))

theorem keeps_take_read {content : State → Bytes} :
    KeepsClasses s (s.take p k tag body refusal fun u => (u, content u)) := keeps_take_works fun u => .refl u

end

section
variable (b : Bytes) (s : State)

theorem keeps_install : KeepsClasses s (installEffect b s).1 := by
  unfold installEffect
  exact .then_works (works_examineLow _ _) rfl rfl rfl

theorem keeps_calibrate : KeepsClasses s (calibrateEffect b s).1 := by
  unfold calibrateEffect
  refine .trans ?_ (.of_works (works_selectAfter _ _))
  split
  · exact .then_works (works_walk _ _) rfl rfl rfl
  · exact .of_same id rfl rfl

theorem keeps_refillEnd : KeepsClasses s (refillEndEffect b s).1 := by
  unfold refillEndEffect
  exact .then_works ((works_walk _ _).trans (works_selectAfter _ _)) rfl rfl rfl

theorem keeps_adjust : KeepsClasses s (adjustEffect b s).1 := by
  unfold adjustEffect
  refine .trans ?_ (.of_works (works_selectAfter _ _))
  split
  · exact .then_works (works_examineLow _ _) rfl rfl rfl
  · split
    · exact .then_works (works_walk _ _) rfl rfl rfl
    · exact .of_same id rfl rfl

theorem keeps_setLine : KeepsClasses s (setLineEffect b s).1 := by
  unfold setLineEffect
  dsimp only
  have store (st : Store) (x : Option (Stored Settings)) (c : Prop) [Decidable c] :
      (if c then st else { st with settings := x }).classes = st.classes := by split <;> rfl
  split
  · exact .then_works (works_select _) rfl rfl (store _ _ _)
  · exact .of_same id rfl (congrArg (List.map _) (store _ _ _))

theorem keeps_submit (p : Port) : KeepsClasses s (submitEffect p b s).1 := by
  unfold submitEffect
  split
  · exact .refl s
  · dsimp only [State.admitJob]
    split
    · exact .then_works ((((works_joinQueue _ _).trans (works_notifyJob _ _ _)).trans (works_wake _)).trans
        (works_select _)) rfl rfl rfl
    · exact .then_works ((((works_setWait _ _ _).trans (works_notifyWait _ _ _ _)).trans
        (works_notifyJob _ _ _)).trans (works_select _)) rfl rfl rfl

/-- CLEAR-PORT touches its port and the slots alone (R170). -/
theorem keeps_clear (p : Port) : KeepsClasses s (clearEffect p s).1 := by
  rw [JobRequests.clearEffect_rest]
  exact .of_same id rfl rfl

/-- A SET finds its class held, or room for one more (R82). -/
theorem keeps_setClass (on : s.power = .on) (passes : setClassRefusal b s = none) :
    KeepsClasses s (setClassEffect b s).1 := by
  have room : (tinClassBody b).code ∈ s.classes.map (fun c => c.code) ∨ s.classes.length < 12 := by
    unfold setClassRefusal at passes
    simp only [StockLaws.firstRefusal_cons_eq_none, StockLaws.refuseIf_eq_none] at passes
    obtain ⟨-, -, -, -, -, full, -⟩ := passes
    rw [← bears_iff]
    refine or_iff_not_imp_left.2 fun new => ?_
    have free : s.hasClass (bodyClass b) = false := Bool.not_eq_true _ ▸ new
    rw [free] at full
    exact Nat.not_le.1 (of_decide_eq_false full)
  exact .of_change (f := putClass (tinClassBody b)) on rfl (stored_putClass _ _) fun law => table_putClass law room

theorem keeps_deleteClass (on : s.power = .on) : KeepsClasses s (deleteClassEffect b s).1 :=
  .of_change (f := List.filter fun c => c.code != bodyClass b) on rfl (stored_dropClass _ _) fun law =>
    table_filter law _

end

/-! ### Events -/

section
variable {s : State}

theorem keeps_event {f : State → State} (h : KeepsClasses s (f s)) : KeepsClasses s (s.whenActive f) := by
  unfold State.whenActive
  split
  · exact h
  · exact .refl s

theorem keeps_event_works {f : State → State} (w : Works s (f s)) : KeepsClasses s (s.whenActive f) :=
  keeps_event (.of_works w)

theorem keeps_port (p : Port) (v : State → PortState) : KeepsClasses s (s.whenActive fun u => u.setPort p (v u)) :=
  keeps_event (.of_same id rfl rfl)

/-- The guard input moves, and what the part does at it follows. -/
theorem keeps_guard (g : GuardState) {f : State → State} (w : ∀ u, Works u (f u)) :
    KeepsClasses s (({ s with guardInput := g }).whenActive f) :=
  .trans (b := { s with guardInput := g }) (.of_same id rfl rfl) (keeps_event_works (w _))

/-- RESET leaves the table, and of the store no more than an incomplete copy (R155, R156). -/
theorem keeps_reset (writing : Option StoreKey) : KeepsClasses s (s.whenActive fun u => u.assertReset writing) := by
  unfold State.whenActive
  split
  · next on =>
    have running : s.power = .on := by simpa [State.active] using on
    exact .of_same (fun _ => by rw [running]; decide) rfl (stored_breakCopy _ _)
  · exact .refl s

/-- The start takes from the store at most what it holds, with distinct codes, and rewrites the copies (R157). -/
theorem keeps_start (g : GuardState) (l : List Instr) : KeepsClasses s (State.start g s.store l) := by
  intro h
  obtain ⟨⟨few, -⟩, -⟩ := (classesOk_iff s).1 h
  have copies : stored (State.start g s.store l).store = (readClasses [] s.store.classes).1 :=
    List.map_map.trans (List.map_id _)
  have count := Start.readClasses_count [] s.store.classes
  have distinct := Start.readClasses_classes (taken := []) ⟨by simp, List.nodup_nil⟩ s.store.classes
  rw [classesOk_iff, copies]
  refine ⟨⟨?_, distinct.2⟩, fun _ => rfl⟩
  simp only [stored, List.length_map, List.length_nil] at few count
  omega

/-- Loss of power leaves of the part the store alone (R155). -/
theorem keeps_powerLoss (g : GuardState) (writing : Option StoreKey) (l : List Instr) :
    KeepsClasses s (State.dark g (s.store.breakCopy writing) l) := by
  intro h
  obtain ⟨law, -⟩ := (classesOk_iff s).1 h
  have copies : stored (State.dark g (s.store.breakCopy writing) l).store = stored s.store := stored_breakCopy _ _
  rw [classesOk_iff, copies]
  exact ⟨law, fun on => absurd rfl on⟩

end

/-! ### Every command -/

theorem keeps_exec {i : Instr} {s t : State} (h : exec i s = .next t) : KeepsClasses s t := by
  cases i with
  | submit p tag body => cases h; exact keeps_take fun u _ _ => keeps_submit body u p
  | cancel p tag body => cases h; exact keeps_take_works (works_cancelEffect body)
  | resume p tag body => cases h; exact keeps_take_works (works_resumeEffect body)
  | retire p tag body => cases h; exact keeps_take_same (fun _ => rfl) (fun _ => rfl) fun _ => rfl
  | readJob p tag body => cases h; exact keeps_take_read
  | readTin p tag body => cases h; exact keeps_take_read
  | install p tag body => cases h; exact keeps_take fun u _ _ => keeps_install body u
  | remove p tag body => cases h; exact keeps_take_same (fun _ => rfl) (fun _ => rfl) fun _ => rfl
  | calibrate p tag body => cases h; exact keeps_take fun u _ _ => keeps_calibrate body u
  | refillBegin p tag body => cases h; exact keeps_take_same (fun _ => rfl) (fun _ => rfl) fun _ => rfl
  | refillEnd p tag body => cases h; exact keeps_take fun u _ _ => keeps_refillEnd body u
  | adjust p tag body => cases h; exact keeps_take fun u _ _ => keeps_adjust body u
  | readCanister p tag body => cases h; exact keeps_take_read
  | setTinClassSet p tag body =>
    cases h
    split
    · exact .refl s
    · exact keeps_take fun u on passes => keeps_setClass body u on passes
  | setTinClassDelete p tag body =>
    cases h
    split
    · exact keeps_take fun u on _ => keeps_deleteClass body u on
    · exact .refl s
  | setLine p tag body => cases h; exact keeps_take fun u _ _ => keeps_setLine body u
  | lineModePark p tag body =>
    cases h
    split
    · exact .refl s
    · exact keeps_take_works works_parkEffect
  | lineModeWake p tag body =>
    cases h
    split
    · exact keeps_take_works works_wakeEffect
    · exact .refl s
  | resumeLine p tag body => cases h; exact keeps_take_works works_resumeLineEffect
  | mixerReturn p tag body => cases h; exact keeps_take_works (works_mixerReturnEffect body)
  | find p tag body => cases h; exact keeps_take_read
  | status p tag body => cases h; exact keeps_take_read
  | fetchNotice p tag body => cases h; exact keeps_take_same (fun _ => rfl) (fun _ => rfl) fun _ => rfl
  | clearPort p tag body => cases h; exact keeps_take fun u _ _ => keeps_clear u p
  | frameReceived p kind tag body crc =>
    simp only [exec, execFrameReceived] at h
    split at h
    · cases h; exact keeps_port p _
    · cases h
  | frameGapTimeout p => cases h; exact keeps_port p _
  | answerSent p =>
    cases h
    refine keeps_event ?_
    unfold State.answerSent
    split
    · exact .refl s
    · exact .of_same id rfl rfl
  | burstDone p n => cases h; exact keeps_event_works (works_burstDone s p n)
  | chargeDone p => cases h; exact keeps_event_works (works_chargeDone s p)
  | recircDone p => cases h; exact keeps_event_works (works_recircDone s p)
  | haltReport p n => cases h; exact keeps_event_works (works_haltReport s p n)
  | reading mass stable overload =>
    simp only [exec, execReading] at h
    split at h
    · cases h; exact keeps_event_works (works_reading s _ _ _)
    · cases h
  | scan cls base =>
    simp only [exec, execScan] at h
    split at h
    · cases h; exact keeps_event_works (works_scan s _ _)
    · cases h
  | loaded m => cases h; exact keeps_event_works (works_loaded s m)
  | clampFault m => cases h; exact keeps_event_works (works_clampFault s m)
  | lidded => cases h; exact keeps_event_works (works_lidded s)
  | tinTaken x => cases h; exact keeps_event_works (works_tinTaken s x)
  | guardOpened => cases h; exact keeps_guard .opened works_guardOpened
  | guardClosed => cases h; exact keeps_guard .closed works_guardClosed
  | resetAssert writing => cases h; exact keeps_reset writing
  | partStart =>
    cases h
    split
    · exact .refl s
    · exact keeps_start _ _
  | settleTimerExpiry p => cases h; exact keeps_event_works (works_settleExpiry s p)
  | keepStirTimerExpiry p => cases h; exact keeps_event_works (works_keepStirExpiry s p)
  | callTimerExpiry => cases h; exact keeps_event_works (works_callExpiry s)
  | dwellTimerExpiry d => cases h; exact keeps_event_works (works_dwellExpiry s d)
  | dripTimerExpiry => cases h; exact keeps_event_works (works_dripExpiry s)
  | scaleSettleTimeout => cases h; exact keeps_event_works (works_scaleTimeout s)
  | mixTimerExpiry m => cases h; exact keeps_event_works (works_mixExpiry s m)
  | powerLoss writing =>
    cases h
    split
    · exact .refl s
    · exact keeps_powerLoss _ writing _
  | frameStartByte p => cases h; exact keeps_port p _
  | lengthByteAbove240 p len =>
    simp only [exec, execLengthByteAbove240] at h
    split at h
    · cases h; exact keeps_port p _
    · cases h

/-- Settles O16: every command keeps the law on the state with the queue's rest, and a millisecond touches neither
list. -/
theorem stepsKeepClassTableAndStoreAgreed : Obligations.StepsKeepClassTableAndStoreAgreed := by
  intro s t ok h
  unfold step at h
  split at h
  · cases h
    exact keeps_event (.of_same id rfl rfl) ok
  · next c rest _ =>
    have waiting : KeepsClasses s { s with pending := rest } := .of_same id rfl rfl
    exact keeps_exec h (waiting ok)

end Sys2Proof.ClassTable
end

section
/-! SET-TIN-CLASS (R81, R82, R155): its checks in order, its two effects, and the statement O38. -/

namespace Sys2Proof.ClassTable

open Sys2Proof Sys2Proof.Machine Sys2Proof.Submit Sys2Proof.Requests

variable {s : State} {tag : Byte} {body : Bytes} {code : Text}

/-! ### The classes held and the classes named -/

theorem hasClass_iff (s : State) (code : Text) : s.hasClass code = true ↔ ∃ c ∈ s.classes, c.code = code := by
  simp [State.hasClass]

/-- A job in a slot, not DONE or CANCELLED, names the class (R82). -/
def Named (s : State) (code : Text) : Prop :=
  ∃ i j, (s.slot i).job = some j ∧ j.state ≠ .done ∧ j.state ≠ .cancelled ∧ j.cls = code

theorem classNamed_iff (s : State) (code : Text) : s.classNamed code = true ↔ Named s code := by
  simp only [State.classNamed, State.jobs, List.any_eq_true, List.mem_filterMap, Option.map_eq_some_iff,
    Bool.and_eq_true, bne_iff_ne, beq_iff_eq, and_assoc]
  constructor
  · rintro ⟨_, ⟨i, -, j, job, rfl⟩, h⟩
    exact ⟨i, j, job, h⟩
  · rintro ⟨i, j, job, h⟩
    exact ⟨_, ⟨i, JobTable.mem_allSlots i, j, job, rfl⟩, h⟩

/-! ### The two rows -/

theorem set_refused (ht : s.Takes .w .setTinClass tag body) (row : body.head? ≠ some 1) {r : Nak}
    (hr : setClassRefusal body s = some r) {detail : Bytes} (hd : r.bytes = detail) :
    exec (.setTinClassSet .w tag body) s = .next (s.replied .w .setTinClass tag detail) := by
  show execSetTinClassSet .w tag body s = _
  rw [execSetTinClassSet, if_neg (by simpa [isDelete] using row)]
  exact taken_refused (refusal := setClassRefusal body) ht rfl rfl hr hd

theorem delete_refused (ht : s.Takes .w .setTinClass tag body) (row : body.head? = some 1) {r : Nak}
    (hr : deleteClassRefusal body s = some r) {detail : Bytes} (hd : r.bytes = detail) :
    exec (.setTinClassDelete .w tag body) s = .next (s.replied .w .setTinClass tag detail) := by
  show execSetTinClassDelete .w tag body s = _
  rw [execSetTinClassDelete, if_pos (by simpa [isDelete] using row)]
  exact taken_refused (refusal := deleteClassRefusal body) ht rfl rfl hr hd

theorem set_ok (ht : s.Takes .w .setTinClass tag body) (row : body.head? ≠ some 1)
    (hr : setClassRefusal body s = none) {t : State} {content : Bytes}
    (he : setClassEffect body (s.popHold .w) = (t, content)) :
    exec (.setTinClassSet .w tag body) s = .next (t.answered .w .setTinClass tag content) := by
  show execSetTinClassSet .w tag body s = _
  rw [execSetTinClassSet, if_neg (by simpa [isDelete] using row)]
  exact taken_ok (refusal := setClassRefusal body) ht rfl rfl hr he

theorem delete_ok (ht : s.Takes .w .setTinClass tag body) (row : body.head? = some 1)
    (hr : deleteClassRefusal body s = none) {t : State} {content : Bytes}
    (he : deleteClassEffect body (s.popHold .w) = (t, content)) :
    exec (.setTinClassDelete .w tag body) s = .next (t.answered .w .setTinClass tag content) := by
  show execSetTinClassDelete .w tag body s = _
  rw [execSetTinClassDelete, if_pos (by simpa [isDelete] using row)]
  exact taken_ok (refusal := deleteClassRefusal body) ht rfl rfl hr he

/-! ### FORMAT and RANGE -/

theorem u8_of_head {n : Byte} (h : body.head? = some n) : u8 body 0 = n.toNat := by
  cases body with
  | nil => cases h
  | cons x l => obtain rfl := Option.some.inj h; rfl

theorem classCodeCheck_bad (h : printable (bodyClass body) = false ∨ blankText (bodyClass body) = true) :
    classCodeCheck body = some (nakField .format 2) :=
  refuseIf_of (by rcases h with h | h <;> simp [h]) _

theorem classCodeCheck_pass (print : printable (bodyClass body) = true) (full : blankText (bodyClass body) = false) :
    classCodeCheck body = none := refuseIf_of_not (by simp [print, full]) _

/-- A body of a SET with its operation and its length goes on to its code. -/
theorem setClassRefusal_sized (row : body.head? = some 0) (length : body.length = 9) :
    setClassRefusal body s = firstRefusal
      [classCodeCheck body, classRange (tinClassBody body),
        refuseIf (s.hasClass (bodyClass body) && s.classNamed (bodyClass body)) (nak .covered),
        refuseIf (!s.hasClass (bodyClass body) && decide (Config.maxClasses ≤ s.classes.length)) (nak .tableFull)] := by
  have op : u8 body 0 = 0 := u8_of_head row
  simp [setClassRefusal, op, length]

theorem refuseIf_range {r : Config.Range} {n : Nat} (h : n < r.lo ∨ r.hi < n) (k : Nak) :
    refuseIf (!r.has n) k = some k := by
  refine refuseIf_of ?_ k
  rw [Bool.not_eq_true', ← Bool.not_eq_true, show r = ⟨r.lo, r.hi⟩ from rfl, range_has]
  omega

theorem refuseIf_in_range {r : Config.Range} {n : Nat} (low : r.lo ≤ n) (high : n ≤ r.hi) (k : Nak) :
    refuseIf (!r.has n) k = none :=
  refuseIf_of_not (by rw [(range_has r.lo r.hi n).2 ⟨low, high⟩]; rfl) k

section
variable {c : TinClass}

theorem classRange_fill (h : c.fill < 250 ∨ 20000 < c.fill) : classRange c = some (nakField .range 3) := by
  rw [classRange, refuseIf_range (r := Config.fillRange) h, firstRefusal_some]

variable (low : 250 ≤ c.fill) (high : c.fill ≤ 20000)
include low high

theorem classRange_headroom (h : c.headroom < 5 ∨ 800 < c.headroom) : classRange c = some (nakField .range 4) := by
  rw [classRange, refuseIf_in_range (r := Config.fillRange) low high, refuseIf_range (r := Config.headroomRange) h,
    firstRefusal_none, firstRefusal_some]

theorem classRange_mixTime (hlow : 5 ≤ c.headroom) (hhigh : c.headroom ≤ 800) (h : c.mixTime < 30 ∨ 600 < c.mixTime) :
    classRange c = some (nakField .range 5) := by
  rw [classRange, refuseIf_in_range (r := Config.fillRange) low high,
    refuseIf_in_range (r := Config.headroomRange) hlow hhigh, refuseIf_range (r := Config.mixTimeRange) h,
    firstRefusal_none, firstRefusal_none, firstRefusal_some]

theorem classRange_pass (hlow : 5 ≤ c.headroom) (hhigh : c.headroom ≤ 800) (mlow : 30 ≤ c.mixTime)
    (mhigh : c.mixTime ≤ 600) : classRange c = none := by
  rw [classRange, refuseIf_in_range (r := Config.fillRange) low high,
    refuseIf_in_range (r := Config.headroomRange) hlow hhigh, refuseIf_in_range (r := Config.mixTimeRange) mlow mhigh]
  rfl

end

/-! ### SET of a class in range -/

/-- The body that sets a class (R178). -/
def setBody (c : TinClass) : Bytes := (0 : Byte) :: (c.code ++ be 2 c.fill ++ be 2 c.headroom ++ be 2 c.mixTime)

section
variable {c : TinClass} (range : c.InRange)
include range

theorem tinClassBody_setBody : tinClassBody (setBody c) = c := by
  obtain ⟨length, -, -, -, fill, -, headroom, -, mixTime⟩ := range
  have body : setBody c = [0] ++ (c.code ++ (be 2 c.fill ++ (be 2 c.headroom ++ (be 2 c.mixTime ++ [])))) := by
    simp [setBody]
  have text (y : Bytes) : textAt (c.code ++ y) 0 2 = c.code := textAt_append_here length y
  rw [body, tinClassBody]
  simp (disch := simp [be_length, length]) only [uN_append_skip, textAt_append_skip, be_length, length,
    List.length_singleton]
  rw [text, uN_here 2 (by omega), uN_here 2 (by omega), uN_here 2 (by omega)]

theorem setClassRefusal_setBody : setClassRefusal (setBody c) s = firstRefusal
    [refuseIf (s.hasClass c.code && s.classNamed c.code) (nak .covered),
      refuseIf (!s.hasClass c.code && decide (Config.maxClasses ≤ s.classes.length)) (nak .tableFull)] := by
  have read := tinClassBody_setBody range
  have named : bodyClass (setBody c) = c.code := congrArg TinClass.code read
  obtain ⟨length, print, full, fill, fill', head, head', mix, mix'⟩ := range
  have pass : classCodeCheck (setBody c) = none :=
    classCodeCheck_pass (by rw [named]; exact print) (by rw [named]; exact full)
  rw [setClassRefusal_sized rfl (by simp [setBody, be_length, length]), pass, read,
    classRange_pass fill fill' head head' mix mix', named, firstRefusal_none, firstRefusal_none]

/-- A replacement (R82). -/
theorem setClassEffect_held {t : State} (held : t.hasClass c.code = true) : setClassEffect (setBody c) t =
    ({ t with classes := t.classes.map fun x => if x.code = c.code then c else x, store := t.store.putClass c },
      c.code ++ [2, byte t.classes.length]) := by
  rw [setClassEffect, tinClassBody_setBody range]
  simp [held]

/-- An addition (R82). -/
theorem setClassEffect_new {t : State} (new : t.hasClass c.code = false) : setClassEffect (setBody c) t =
    ({ t with classes := t.classes ++ [c], store := t.store.putClass c },
      c.code ++ [1, byte (t.classes.length + 1)]) := by
  rw [setClassEffect, tinClassBody_setBody range]
  simp [new]

end

/-- The stored copy of a class replaces that of its code, or joins the store (R155). -/
theorem putClass_eq (st : Store) (c : TinClass) : st.putClass c = { st with
    classes := if ∃ x ∈ st.classes, x.data.code = c.code then
        st.classes.map fun x => if x.data.code = c.code then ⟨c, true⟩ else x
      else st.classes ++ [⟨c, true⟩] } := by
  simp [Store.putClass]

/-! ### DELETE -/

theorem deleteClassRefusal_named (length : code.length = 2) (print : printable code = true)
    (full : blankText code = false) : deleteClassRefusal (1 :: code) s = firstRefusal
      [refuseIf (!s.hasClass code) ⟨.noClass, 0, 0, code⟩, refuseIf (s.classNamed code) (nak .covered)] := by
  have named : bodyClass (1 :: code) = code := List.take_of_length_le length.le
  have pass : classCodeCheck (1 :: code) = none :=
    classCodeCheck_pass (by rw [named]; exact print) (by rw [named]; exact full)
  rw [deleteClassRefusal, pass, named]
  simp [length]

theorem deleteClassEffect_named (length : code.length = 2) (t : State) : deleteClassEffect (1 :: code) t =
    ({ t with classes := t.classes.filter fun x => x.code != code, store := t.store.dropClass code },
      code ++ [3, byte (t.classes.filter fun x => x.code != code).length]) := by
  have named : bodyClass (1 :: code) = code := List.take_of_length_le length.le
  rw [deleteClassEffect, named]

/-! ### The statement -/

/-- Settles O38: the checks in order for any body, then the effect of a SET in range and of a DELETE by whether the class
is held, named, and has room. -/
theorem tinClassesAreSetAndDeleted : Obligations.TinClassesAreSetAndDeleted := by
  refine ⟨fun s tag body ht => ?_, fun s tag code fill head mix length print full => ?_⟩
  · intro code set delete
    have sets (row : body.head? ≠ some 1) {r : Nak} (hr : setClassRefusal body s = some r) : set r.bytes :=
      set_refused ht row hr rfl
    have deletes (row : body.head? = some 1) {r : Nak} (hr : deleteClassRefusal body s = some r) : delete r.bytes :=
      delete_refused ht row hr rfl
    refine ⟨fun empty => sets (r := nak .format) (by rw [empty]; decide) (by rw [empty]; rfl), fun undefined => ?_,
      fun row => ?_, fun row => ⟨fun length => deletes (r := nak .format) row ?_, fun length bad =>
        deletes (r := nakField .format 2) row ?_⟩⟩
    · refine sets (r := nakField .format 1) (fun one => ?_) ?_
      · rw [u8_of_head one] at undefined
        exact absurd undefined (by decide)
      · cases body with
        | nil => cases undefined
        | cons x l =>
          have op : u8 (x :: l) 0 ≠ 0 := by omega
          simp [setClassRefusal, op]
    · have other : body.head? ≠ some 1 := by rw [row]; decide
      have op : u8 body 0 = 0 := u8_of_head row
      refine ⟨fun length => sets (r := nak .format) other ?_, fun length => ⟨fun bad =>
        sets (r := nakField .format 2) other ?_, fun print full => ⟨fun fill => sets (r := nakField .range 3) other ?_,
          fun low high => ⟨fun head => sets (r := nakField .range 4) other ?_, fun hlow hhigh mix =>
            sets (r := nakField .range 5) other ?_⟩⟩⟩⟩
      · simp [setClassRefusal, op, length]
      · rw [setClassRefusal_sized row length, classCodeCheck_bad bad, firstRefusal_some]
      all_goals rw [setClassRefusal_sized row length, classCodeCheck_pass print full, firstRefusal_none]
      · rw [classRange_fill fill, firstRefusal_some]
      · rw [classRange_headroom low high head, firstRefusal_some]
      · rw [classRange_mixTime low high hlow hhigh mix, firstRefusal_some]
    · simp [deleteClassRefusal, length]
    · simp [deleteClassRefusal, length, classCodeCheck_bad bad]
  · intro held named
    have isHeld : s.hasClass code = true ↔ held := hasClass_iff s code
    have isNamed : s.classNamed code = true ↔ named := classNamed_iff s code
    have isFree (h : ¬ held) : s.hasClass code = false := Bool.not_eq_true _ ▸ mt isHeld.1 h
    have isUnnamed (h : ¬ named) : s.classNamed code = false := Bool.not_eq_true _ ▸ mt isNamed.1 h
    refine ⟨?_, fun ht => ⟨fun free => ?_, fun isIn used => ?_, fun isIn unused => ?_⟩⟩
    · intro body c stored ht low high hlow hhigh mlow mhigh
      have range : c.InRange := ⟨length, print, full, low, high, hlow, hhigh, mlow, mhigh⟩
      have checks := setClassRefusal_setBody (s := s) range
      have row : (setBody c).head? ≠ some 1 := fun one => absurd (Option.some.inj one) (by decide)
      have copy : s.store.putClass c = stored := putClass_eq s.store c
      rw [← copy]
      refine ⟨fun isIn used => set_refused ht row (r := nak .covered) (checks.trans ?_) rfl, fun isIn unused =>
        set_ok ht row (checks.trans ?_) (setClassEffect_held range (isHeld.2 isIn)), fun free twelve =>
        set_refused ht row (r := nak .tableFull) (checks.trans ?_) rfl, fun free room =>
        set_ok ht row (checks.trans ?_) (setClassEffect_new range (isFree free))⟩
      · rw [isHeld.2 isIn, isNamed.2 used]; rfl
      · rw [isHeld.2 isIn, isUnnamed unused]; rfl
      · rw [isFree free, decide_eq_true (show Config.maxClasses ≤ s.classes.length from twelve)]; rfl
      · rw [isFree free, decide_eq_false (show ¬ Config.maxClasses ≤ s.classes.length from Nat.not_le.2 room)]; rfl
    · refine delete_refused ht rfl (r := ⟨.noClass, 0, 0, code⟩) ?_ rfl
      rw [deleteClassRefusal_named length print full, isFree free]; rfl
    · refine delete_refused ht rfl (r := nak .covered) ?_ rfl
      rw [deleteClassRefusal_named length print full, isHeld.2 isIn, isNamed.2 used]; rfl
    · refine delete_ok ht rfl ?_ (deleteClassEffect_named length _)
      rw [deleteClassRefusal_named length print full, isHeld.2 isIn, isUnnamed unused]; rfl

end Sys2Proof.ClassTable
end

section
/-! The rules of the scheduler (R84 to R89): which handles a selection passes over, what a call leaves of the queue and of
the job it names, and the quota rule. -/

namespace Sys2Proof.Schedule

open Sys2Proof Sys2Proof.Machine Sys2Proof.Submit Sys2Proof.Stock

variable {s : State} {h : Handle} {j : Job}

/-- A job put where it stands already. -/
theorem putJob_self (job : s.job? h = some j) : s.putJob h j = s :=
  (modJob_eq job id).symm.trans (JobRequests.modJob_self job rfl)

/-! ### Candidates -/

/-- A job of which a selection with no call and no tin may call a tin (R86). -/
def Ready (s : State) (j : Job) : Prop :=
  j.state ≠ .suspended ∧ j.started < j.n ∧ ∀ x ∈ j.nextSteps.zip j.comps, 0 < x.1 → (s.can x.2.pos).state ≠ .locked

theorem noneLocked_iff (s : State) (ks : List Nat) (cs : List Component) :
    s.noneLocked ks cs = true ↔ ∀ x ∈ ks.zip cs, 0 < x.1 → (s.can x.2.pos).state ≠ .locked := by
  induction ks generalizing cs with
  | nil => simp [State.noneLocked]
  | cons k ks ih =>
    cases cs with
    | nil => simp [State.noneLocked]
    | cons c cs =>
      have head : (k == 0 || (s.can c.pos).state != .locked) = true ↔ (0 < k → (s.can c.pos).state ≠ .locked) := by
        rw [Bool.or_eq_true, beq_iff_eq, bne_iff_ne, Nat.pos_iff_ne_zero, or_iff_not_imp_left]
      rw [State.noneLocked, Bool.and_eq_true, ih, head, List.zip_cons_cons, List.forall_mem_cons]

theorem candidate_iff (call : s.call = none) (tin : s.tin = none) (h : Handle) (j : Job) :
    s.candidate h j = true ↔ Ready s j := by
  have uncalled : s.called h = false := by simp [State.called, call]
  have away : s.atStation h = false := by simp [State.atStation, tin]
  have left : 1 ≤ s.tinsLeft h j ↔ j.started < j.n := by
    rw [State.tinsLeft, uncalled, if_neg Bool.false_ne_true]; omega
  simp [State.candidate, uncalled, away, left, noneLocked_iff, Ready, and_assoc]

/-! ### Handles passed over -/

/-- None of these handles names a job that could be called. -/
def Passed (s : State) (l : List Handle) : Prop := ∀ x ∈ l, ∀ j, s.job? x = some j → ¬ Ready s j

/-- A selection passes over such handles. -/
theorem selectFrom_passed (before : State) {l : List Handle} (call : s.call = none) (tin : s.tin = none)
    (passed : Passed s l) (rest : List Handle) :
    State.selectFrom before (l ++ rest) s = State.selectFrom before rest s := by
  induction l with
  | nil => rfl
  | cons x l ih =>
    obtain ⟨first, behind⟩ := List.forall_mem_cons.1 passed
    rw [List.cons_append, State.selectFrom]
    cases job : s.job? x with
    | none => exact ih behind
    | some k =>
      dsimp only
      rw [if_neg (mt (candidate_iff call tin x k).1 (first k job))]
      exact ih behind

/-! ### What a call leaves -/

/-- The job table, the queue, the quota count, the line and the call stand. -/
structure Leaves (s t : State) : Prop where
  slots : t.slots = s.slots
  queue : t.queue = s.queue
  quota : t.quota = s.quota
  line : t.line = s.line
  call : t.call = s.call

theorem Leaves.refl (s : State) : Leaves s s := ⟨rfl, rfl, rfl, rfl, rfl⟩

theorem Leaves.trans {a b c : State} (h : Leaves a b) (k : Leaves b c) : Leaves a c :=
  ⟨k.slots.trans h.slots, k.queue.trans h.queue, k.quota.trans h.quota, k.line.trans h.line, k.call.trans h.call⟩

theorem Leaves.job? {s t : State} (l : Leaves s t) (h : Handle) : t.job? h = s.job? h := by
  simp only [State.job?, slot_congr l.slots]

theorem Leaves.called {s t : State} (l : Leaves s t) (h : Handle) : t.called h = s.called h := by
  simp only [State.called, l.call]

theorem leaves_askRecirc (s : State) (p : Pos) : Leaves s (s.askRecirc p) := by
  unfold State.askRecirc State.examineRecirc
  dsimp only
  split
  · split
    · exact ⟨rfl, rfl, rfl, rfl, rfl⟩
    · exact ⟨rfl, rfl, rfl, rfl, rfl⟩
  · exact .refl s

theorem leaves_askAll (ks : List Nat) (cs : List Component) (s : State) : Leaves s (s.askAll ks cs) := by
  induction ks generalizing cs s with
  | nil => exact .refl s
  | cons k ks ih =>
    cases cs with
    | nil => exact .refl s
    | cons c cs =>
      rw [State.askAll]
      split
      · exact ih cs s
      · exact (leaves_askRecirc s c.pos).trans (ih cs _)

/-! ### The call and the quota rule -/

/-- The next tin of job `k` is called: the record, the timer, TIN-CALL and the requests for recirculation (R89). -/
def announced (s : State) (h : Handle) (k : Job) : State :=
  ({ s.putJob h k with
    call := some ⟨h, k.nextTin, k.cls, k.base⟩, station := .calling
    callTimer := some (s.line.settings.callTimeout * 1000) }.notify k.owner
      (.tinCall h k.nextTin k.cls k.base)).askAll k.nextSteps k.comps

/-- A job a tin of which is called: READY becomes ACTIVE (R66, R89). -/
def activated (k : Job) : Job := { k with state := if k.state = JobState.ready then .active else k.state }

/-- The quota rule behind the call of a tin of job `k`, for a queue that stood as in `s` (R88). -/
def requeued (s a : State) (h : Handle) (k : Job) : State :=
  let behind := s.queue.filter (· != h)
  if k.n ≤ k.started + 1 then { a with queue := behind, quota := if behind.head? = s.queue.head? then s.quota else 0 }
  else if s.queue.head? = some h then
    if s.line.settings.quota ≤ s.quota + 1 then { a with queue := behind ++ [h], quota := 0 }
    else { a with quota := s.quota + 1 }
  else a

/-- The state after the call of a tin of job `k`. -/
def afterCall (s : State) (h : Handle) (k : Job) : State :=
  requeued s ((announced s h k).modJob h activated) h k

theorem leaves_announced (s : State) (h : Handle) (k : Job) :
    Leaves { s.putJob h k with call := some ⟨h, k.nextTin, k.cls, k.base⟩ } (announced s h k) :=
  .trans (b := { s.putJob h k with
    call := some ⟨h, k.nextTin, k.cls, k.base⟩, station := .calling
    callTimer := some (s.line.settings.callTimeout * 1000) }.notify k.owner (.tinCall h k.nextTin k.cls k.base))
    ⟨rfl, rfl, rfl, rfl, rfl⟩ (leaves_askAll _ _ _)

theorem job?_announced (s : State) (h : Handle) (k : Job) : (announced s h k).job? h = some k :=
  ((leaves_announced s h k).job? h).trans (job?_putJob s h k)

theorem applyQuota_eq {a : State} {k : Job} (job : a.job? h = some k) (called : a.called h = true)
    (queue : a.queue = s.queue) (quota : a.quota = s.quota) (line : a.line = s.line) :
    a.applyQuota h = requeued s a h k := by
  have left : k.n - k.started - 1 = 0 ↔ k.n ≤ k.started + 1 := by omega
  unfold State.applyQuota requeued
  rw [job]
  simp only [State.tinsLeft, called, if_true, left, State.leaveQueue, State.setQueue, queue, quota, line]

theorem makeCall_eq (s : State) (h : Handle) (k : Job) : (s.putJob h k).makeCall h k = afterCall s h k := by
  have leaves := leaves_announced s h k
  have job := job?_announced s h k
  have active : (fun k : Job => if k.state == .ready then { k with state := .active } else k) = activated := by
    funext k
    unfold activated
    by_cases ready : k.state = .ready <;> simp [ready]
  have called : ((announced s h k).modJob h activated).called h = true := by
    rw [modJob_eq job]
    exact (leaves.called h).trans (by simp [State.called])
  have quotaRule : ((announced s h k).modJob h activated).applyQuota h =
      requeued s ((announced s h k).modJob h activated) h (activated k) :=
    applyQuota_eq (job?_modJob_same job activated) called (by rw [modJob_eq job]; exact leaves.queue)
      (by rw [modJob_eq job]; exact leaves.quota) (by rw [modJob_eq job]; exact leaves.line)
  unfold State.makeCall
  rw [active]
  exact quotaRule

end Sys2Proof.Schedule
end

section
/-! The selection (R85 to R89): the lot check of the first candidate, the notice of a lot stop (R70), and the statement
O49. -/

namespace Sys2Proof.Schedule

open Sys2Proof Sys2Proof.Machine Sys2Proof.Submit Sys2Proof.Stock

variable {s : State} {h : Handle} {j : Job}

/-! ### The lot check -/

/-- A component whose batch need is not 0 and whose canister holds another lot (R87). -/
def Broken (s : State) (j : Job) (c : Component) : Prop :=
  0 < cumSteps j.n c.exact (c.qSnap * j.vref) ∧ c.lotSnap ≠ (s.can c.pos).kept.lot

theorem lotBroken_iff (s : State) (j : Job) (c : Component) : s.lotBroken j c = true ↔ Broken s j c := by
  rw [State.lotBroken, State.lotDiffers, Bool.and_eq_true, decide_eq_true_iff, bne_iff_ne]
  rfl

/-- A component that the lot check has marked holds its canister's lot (R87). -/
theorem marked_eq (s : State) (j : Job) (c : Component) :
    (if s.lotBroken j c then s.markLot c else c) =
      if 0 < cumSteps j.n c.exact (c.qSnap * j.vref) ∧ c.lotSnap ≠ (s.can c.pos).kept.lot then
        { c with lotSnap := (s.can c.pos).kept.lot, lotBreak := true }
      else c := by
  refine ite_congr (propext (lotBroken_iff s j c)) (fun broken => ?_) fun _ => rfl
  exact if_pos (bne_iff_ne.2 broken.2)

/-! ### The notice of a lot stop -/

theorem toldOf_eq (ps : PortState) (h : Handle) : ps.toldOf h = ps.notices.countP fun n => match n with
    | .jobState k _ _ => k = h
    | _ => false := by
  rw [PortState.toldOf, ← List.countP_eq_length_filter]
  refine List.countP_congr fun n _ => ?_
  cases n <;> simp [Notice.tellsJob]

theorem tellsJob_iff (h : Handle) (n : Notice) : n.tellsJob h = true ↔ ∃ st c, n = .jobState h st c := by
  cases n <;> simp [Notice.tellsJob]

/-- The newest notice that meets the condition gives way (R70). -/
theorem replaceNewest_last {f : Notice → Bool} {first rest : List Notice} {x : Notice} (meets : f x = true)
    (newest : ∀ y ∈ rest, f y = false) (n : Notice) :
    replaceNewest f n (first ++ x :: rest) = first ++ n :: rest := by
  have none : rest.any f = false := List.any_eq_false.2 fun y hy => by simp [newest y hy]
  induction first with
  | nil => simp [replaceNewest, meets, none]
  | cons y first ih =>
    have later : (first ++ x :: rest).any f = true := by simp [meets]
    rw [List.cons_append, replaceNewest, later, Bool.not_true, Bool.and_false, if_neg Bool.false_ne_true, ih,
      List.cons_append]

/-! ### The first candidate -/

section
variable {before : State} {l pre post : List Handle} (call : s.call = none) (tin : s.tin = none)
  (split : l = pre ++ h :: post) (passed : Passed s pre) (job : s.job? h = some j) (ready : Ready s j)
include call tin split passed job ready

/-- A selection that comes to a candidate makes the lot check (R86, R87). -/
theorem selectFrom_candidate : State.selectFrom before l s =
    if j.comps.any (s.lotBroken j) then
      if j.dLotBreak = .mark then
        afterCall s h { j with comps := j.comps.map fun c => if s.lotBroken j c then s.markLot c else c }
      else State.selectFrom before post (s.lotStop before h)
    else afterCall s h j := by
  have plain : s.makeCall h j = afterCall s h j := by rw [← makeCall_eq s h j, putJob_self job]
  rw [split, selectFrom_passed before call tin passed, State.selectFrom, job]
  dsimp only
  rw [if_pos ((candidate_iff call tin h j).2 ready), modJob_eq job, makeCall_eq, plain]
  cases j.dLotBreak <;> rfl

theorem selectFrom_plain (whole : ∀ c ∈ j.comps, ¬ Broken s j c) :
    State.selectFrom before l s = afterCall s h j := by
  have none : ¬ j.comps.any (s.lotBroken j) = true := by simpa [lotBroken_iff] using whole
  rw [selectFrom_candidate call tin split passed job ready, if_neg none]

theorem selectFrom_mark (broken : ∃ c ∈ j.comps, Broken s j c) (mark : j.dLotBreak = .mark) :
    State.selectFrom before l s =
      afterCall s h { j with comps := j.comps.map fun c => if s.lotBroken j c then s.markLot c else c } := by
  have some : j.comps.any (s.lotBroken j) = true := by simpa [lotBroken_iff] using broken
  rw [selectFrom_candidate call tin split passed job ready, if_pos some, if_pos mark]

theorem selectFrom_stop (broken : ∃ c ∈ j.comps, Broken s j c) (stop : j.dLotBreak = .stop) :
    State.selectFrom before l s = State.selectFrom before post (s.lotStop before h) := by
  have some : j.comps.any (s.lotBroken j) = true := by simpa [lotBroken_iff] using broken
  rw [selectFrom_candidate call tin split passed job ready, if_pos some, if_neg (by rw [stop]; decide)]

end

/-! ### The lot stop -/

/-- The job as the lot check suspends it (R67, R87). -/
def lotStopped (s : State) (h : Handle) (j : Job) : State :=
  s.putJob h { j with state := .suspended, cause := some .lotStop }

section
variable {before : State} (job : s.job? h = some j)
include job

/-- The event has granted or resumed the job (R51, R77). -/
theorem releasedSince_iff (ready : j.state ≠ .suspended) : s.releasedSince before h = true ↔
    j.state ≠ .waitingStock ∧ ∃ k, before.job? h = some k ∧ (k.state = .waitingStock ∨ k.state = .suspended) := by
  unfold State.releasedSince
  rw [job]
  cases before.job? h with
  | none => simp
  | some k => simp [ready, and_comm]

theorem lotStop_tells (kept : s.releasedSince before h = false) :
    s.lotStop before h =
      ((lotStopped s h j).notify j.owner (.jobState h .suspended .lotStop)).examinePark := by
  rw [State.lotStop, kept, modJob_eq job]
  exact congrArg State.examinePark (notifyJob_eq (job?_putJob s h _) .lotStop)

theorem lotStop_restates (released : s.releasedSince before h = true)
    (told : (before.port j.owner).toldOf h < (s.port j.owner).toldOf h) :
    s.lotStop before h = ((lotStopped s h j).setPort j.owner { s.port j.owner with
      notices := replaceNewest (Notice.tellsJob h) (.jobState h .suspended .lotStop) (s.port j.owner).notices
      }).examinePark := by
  simp only [State.lotStop, released, if_true, modJob_eq job, State.restateJob, job?_putJob]
  exact congrArg State.examinePark (if_pos told)

theorem lotStop_dropped (released : s.releasedSince before h = true)
    (untold : (s.port j.owner).toldOf h ≤ (before.port j.owner).toldOf h) :
    s.lotStop before h = (lotStopped s h j).examinePark := by
  simp only [State.lotStop, released, if_true, modJob_eq job, State.restateJob, job?_putJob]
  exact congrArg State.examinePark (if_neg (Nat.not_lt.2 untold))

end

/-! ### The statement -/

theorem selectAfter_eq (s before : State) : s.selectAfter before =
    if s.station = .idle ∧ s.call = none ∧ s.tin = none ∧ (s.line.mode = .run ∨ s.line.mode = .parking) then
      State.selectFrom before s.queue s
    else s := by
  simp [State.selectAfter, and_assoc]

/-- The next tin is the lowest PENDING one (R86). -/
theorem nextTin_first {pre post : List TinResult} {e : TinResult} (split : j.results = pre ++ e :: post)
    (pending : e.outcome = .pending) (earlier : ∀ x ∈ pre, x.outcome ≠ .pending) : j.nextTin = e.index := by
  have found : j.results.find? (fun e => e.outcome == .pending) = some e :=
    List.find?_eq_some_iff_append.2 ⟨by simp [pending], pre, post, split, fun x hx => by simpa using earlier x hx⟩
  rw [Job.nextTin, found]

/-- Settles O49: the handles before the first candidate are passed over, and its lot check decides whether it is called,
marked and called, or stopped. -/
theorem selectionCallsTheFirstCandidate : Obligations.SelectionCallsTheFirstCandidate := by
  refine ⟨?_, ?_, fun _ => rfl, fun j pre e post split pending earlier => nextTin_first split pending earlier⟩
  · intro s before may
    exact ⟨rfl, fun no => (selectAfter_eq s before).trans (if_neg no), fun yes =>
      (selectAfter_eq s before).trans (if_pos yes)⟩
  intro s before l call tin ready passed broken
  refine ⟨fun all => ?_, fun pre h post j split passedPre job isReady => ?_⟩
  · have passes := selectFrom_passed before (l := l) call tin all []
    rw [List.append_nil] at passes
    exact passes
  refine ⟨selectFrom_plain call tin split passedPre job isReady, fun some => ⟨fun mark => ?_, fun stop => ?_⟩⟩
  · rw [selectFrom_mark call tin split passedPre job isReady some mark]
    simp only [marked_eq]
    rfl
  · intro u tells told released
    have toldOf (v : State) : (v.port j.owner).toldOf h = told v := toldOf_eq _ h
    have since : s.releasedSince before h = true ↔ released := releasedSince_iff job isReady.1
    rw [selectFrom_stop call tin split passedPre job isReady some stop]
    refine ⟨fun kept => ?_, fun granted more first n rest notices tellsN newest => ?_, fun granted less => ?_⟩
    · rw [lotStop_tells job (Bool.not_eq_true _ ▸ mt since.1 kept)]
      rfl
    · have newestTold (y : Notice) (hy : y ∈ rest) : y.tellsJob h = false :=
        Bool.not_eq_true _ ▸ mt (tellsJob_iff h y).1 (newest y hy)
      rw [lotStop_restates job (since.2 granted) (by rw [toldOf, toldOf]; exact more), notices,
        replaceNewest_last ((tellsJob_iff h n).2 tellsN) newestTold]
      rfl
    · rw [lotStop_dropped job (since.2 granted) (by rw [toldOf, toldOf]; exact less)]
      rfl

end Sys2Proof.Schedule
end

section
/-! The call at the scanner and at its timer (R66, R90 to R94, R97, R120), the passing of a millisecond (R90, R156), and
the statements O2, O56 and O58. -/

namespace Sys2Proof.Schedule

open Sys2Proof Sys2Proof.Machine Sys2Proof.Submit Sys2Proof.Stock Sys2Proof.Timers

variable {s : State} {c : Call} {j : Job}

theorem halted_iff (s : State) : s.halted = true ↔ s.line.mode = .halted := by simp [State.halted]

theorem halted_false (mode : s.line.mode ≠ .halted) : s.halted = false :=
  Bool.not_eq_true _ ▸ mt (halted_iff s).1 mode

/-! ### One millisecond -/

theorem step_idle (idle : s.pending = []) : step s = .next s.tick := by rw [step, idle]

/-- Settles O2: an active part counts down every timer the statement names, and an inactive one none. -/
theorem emptyQueueStepPassesOneMillisecond : Obligations.EmptyQueueStepPassesOneMillisecond := by
  intro s idle
  rw [step_idle idle]
  refine ⟨fun off => ?_, fun on => ⟨_, congrArg _ (whenActive_on on _), rfl, fun p => ?_, fun p => ?_, ?_, fun d => ?_,
    rfl, rfl, rfl, rfl⟩⟩
  · exact congrArg _ (if_neg (by simpa [State.active] using off))
  · exact mapVec_getFin _ s.ports (portIdx p)
  · exact mapVec_getFin _ s.canisters p
  · exact if_congr (halted_iff s) rfl rfl
  · exact mapVec_getFin _ s.channels d

/-! ### The scanner -/

theorem exec_scan {cls base : Text} (on : s.power = .on) (hcls : cls.length = 2) (hbase : base.length = 4) :
    exec (.scan cls base) s = .next (s.scan cls base) := by
  have fits : scanFits cls base = true := by simp [scanFits, hcls, hbase]
  show execScan cls base s = _
  rw [execScan, if_pos fits, whenActive_on on]

theorem scan_ignored (h : s.call = none ∨ s.line.mode = .halted) (cls base : Text) : s.scan cls base = s := by
  unfold State.scan
  split
  · rfl
  · next c call =>
    have halted : s.halted = true := (halted_iff s).2 (h.resolve_left (by simp [call]))
    rw [halted]
    rfl

theorem scan_called (call : s.call = some c) (calling : s.station = .calling) (mode : s.line.mode ≠ .halted)
    (job : s.job? c.handle = some j) (cls base : Text) :
    s.scan cls base = if cls = c.cls ∧ base = c.base then s.admitTin c j else s.notify j.owner (.wrongTin cls base) := by
  simp [State.scan, call, job, calling, halted_false mode]

/-- The admitted tin (R93, R97, R120). -/
theorem admitTin_eq (job : s.job? c.handle = some j) : s.admitTin c j =
    { s with
      gateOpen := true, call := none, callTimer := none, station := .taring
      capture := .tare, scaleTimer := some s.line.settings.scaleSettle
      tin := some (newTin c j) }.putJob c.handle { j with expiries := 0, started := j.started + 1 } := by
  have named : { s with gateOpen := true, call := none, callTimer := none, station := .taring
                        tin := some (newTin c j) }.job? c.handle = some j := job
  rw [State.admitTin, modJob_eq named]
  rfl

/-- Settles O56: the codes decide between the tin's admission and WRONG-TIN. -/
theorem scanAdmitsTheCalledTin : Obligations.ScanAdmitsTheCalledTin := by
  intro s cls base on hcls hbase
  rw [exec_scan on hcls hbase]
  refine ⟨fun none => by rw [scan_ignored none], fun c j call calling mode job => ⟨fun other => ?_, fun hc hb => ?_⟩⟩
  · rw [scan_called call calling mode job, if_neg other]
  · have counts : (newTin c j).dispensed = j.comps.map fun _ => 0 := List.map_map
    rw [scan_called call calling mode job, if_pos ⟨hc, hb⟩, admitTin_eq job, ← counts]
    rfl

/-! ### The call timer -/

/-- A job with no tin called is READY once its last tin has left the line (R66). -/
theorem calmJob_eq {h : Handle} (job : s.job? h = some j) (uncalled : s.called h = false) :
    s.calmJob h = s.putJob h { j with
      state := if j.state = .active ∧ s.tinCount h = 0 ∧ j.counted < j.n then .ready else j.state } := by
  unfold State.calmJob
  rw [job]
  dsimp only
  by_cases calm : j.state = .active ∧ s.tinCount h = 0 ∧ j.counted < j.n
  · obtain ⟨active, gone, left⟩ := calm
    rw [if_pos (by simp [active, gone, left, uncalled]), if_pos ⟨active, gone, left⟩, modJob_eq job]
  · rw [if_neg (by simpa [uncalled, and_assoc] using calm), if_neg calm, putJob_self job]

theorem callExpiry_stopped (h : s.callTimer = none ∨ s.call = none ∨ s.line.mode = .halted) : s.callExpiry = s := by
  unfold State.callExpiry
  split
  · rfl
  · next c call =>
    refine if_neg fun runs => ?_
    rw [Bool.and_eq_true, Option.isSome_iff_ne_none, Bool.not_eq_true', ← Bool.not_eq_true, halted_iff] at runs
    rcases h with timer | none | mode
    · exact runs.1 timer
    · rw [call] at none; cases none
    · exact runs.2 mode

/-- A job that has let one more call expire, and may have no tin left on the line (R66, R91). -/
def missed (s : State) (h : Handle) (j : Job) : Job :=
  { j with
    state := if j.state = .active ∧ s.tinCount h = 0 ∧ j.counted < j.n then .ready else j.state
    expiries := j.expiries + 1 }

/-- The expiry up to the third one's suspension (R91). -/
theorem callExpiry_runs (call : s.call = some c) (timer : s.callTimer ≠ none) (mode : s.line.mode ≠ .halted)
    (job : s.job? c.handle = some j) : s.callExpiry =
      (((s.withdrawCall.rotate c.handle).putJob c.handle (missed s c.handle j)).expirySuspend
        c.handle).examinePark.select := by
  have withdrawn : s.withdrawCall.job? c.handle = some j := job
  have running : s.callTimer.isSome = true := Option.isSome_iff_ne_none.2 timer
  have calm := calmJob_eq (job?_putJob s.withdrawCall c.handle { j with expiries := j.expiries + 1 }) rfl
  rw [putJob_putJob] at calm
  unfold State.callExpiry
  simp only [call, running, halted_false mode, modJob_eq withdrawn, calm]
  rfl

theorem expirySuspend_early {h : Handle} (job : s.job? h = some j) (early : j.expiries ≠ Config.expiryLimit) :
    s.expirySuspend h = s := by
  rw [State.expirySuspend, job]
  exact if_neg early

theorem expirySuspend_third {h : Handle} (job : s.job? h = some j) (third : j.expiries = Config.expiryLimit) :
    s.expirySuspend h = ((s.putJob h { j with state := .suspended, cause := some .callExpired }).notify j.owner
      (.jobState h .suspended .callExpired)).examinePark := by
  rw [State.expirySuspend, job]
  dsimp only
  rw [if_pos third, State.suspend, modJob_eq job]
  exact congrArg State.examinePark (notifyJob_eq (job?_putJob s h _) .callExpired)

/-- Settles O58: the expiry that is the third in a row suspends the job, and every other leaves it in the queue. -/
theorem callTimerExpiryWithdrawsTheCall : Obligations.CallTimerExpiryWithdrawsTheCall := by
  intro s on
  have run : exec .callTimerExpiry s = .next s.callExpiry := congrArg _ (whenActive_on on _)
  rw [run]
  refine ⟨fun stopped => by rw [callExpiry_stopped stopped], fun c j call timer mode job => ?_⟩
  intro h calm u
  have named := job?_putJob (s.withdrawCall.rotate h) h (missed s h j)
  rw [callExpiry_runs call timer mode job]
  refine ⟨fun early => ?_, fun second => ?_⟩
  · rw [expirySuspend_early named (fun third => early (Nat.succ.inj third))]
    rfl
  · rw [expirySuspend_third named (congrArg (· + 1) second), putJob_putJob, missed, second]
    rfl

end Sys2Proof.Schedule
end

section
/-! The start check of a channel (R104), the channels that a pump's report lets go on (R105, R106), the reports of
CHARGE, RECIRC and HALT (R100, R101), and the statements O51 and O53. -/

namespace Sys2Proof.Channels

open Sys2Proof Sys2Proof.Machine Sys2Proof.Bursts Sys2Proof.Timers Sys2Proof.Schedule

variable {s : State} {p : Pos} {d : ChanId}

/-! ### The start check -/

section
variable {t : TinCtx} (tin : s.tin = some t)
include tin

theorem startCheck_cancel (stop : t.stop = .cancel) :
    s.startCheck d = s.setChan d { s.chan d with state := .done } := by
  simp only [State.startCheck, tin, stop]
  rfl

theorem startCheck_guard (stop : t.stop = .guard) : s.startCheck d = s.setChan d Channel.free := by
  simp only [State.startCheck, tin, stop]

theorem startCheck_halted (stop : t.stop = .none) (mode : s.line.mode = .halted) : s.startCheck d = s := by
  simp only [State.startCheck, tin, stop, (halted_iff s).2 mode, if_true]

variable (stop : t.stop = .none) (mode : s.line.mode ≠ .halted)
include stop mode

theorem startCheck_settled (can : (s.can (s.chan d).pos).state = .settled) :
    s.startCheck d = (s.setChan d { s.chan d with state := .waitRecirc }).askRecirc (s.chan d).pos := by
  simp only [State.startCheck, tin, stop, halted_false mode, can]
  rfl

theorem startCheck_recirc (can : (s.can (s.chan d).pos).state = .recirc) :
    s.startCheck d = s.setChan d { s.chan d with state := .waitRecirc } := by
  simp only [State.startCheck, tin, stop, halted_false mode, can]
  rfl

theorem startCheck_fit (can : (s.can (s.chan d).pos).state = .ready ∨ (s.can (s.chan d).pos).state = .stirring) :
    s.startCheck d = s.startOnFit d := by
  rcases can with can | can
  · simp only [State.startCheck, tin, stop, halted_false mode, can]
    rfl
  · simp only [State.startCheck, tin, stop, halted_false mode, can]
    rfl

end

theorem startOnFit_joins (pump : (s.pump (s.chan d).pos).state = .charging) :
    s.startOnFit d = s.setChan d { s.chan d with state := .waitCharge } := by
  rw [State.startOnFit, pump]
  rfl

theorem startOnFit_charges (pump : (s.pump (s.chan d).pos).state = .idle) (empty : (s.pump (s.chan d).pos).charge = 0) :
    s.startOnFit d = s.sendCharge d := by
  rw [State.startOnFit, pump]
  exact if_pos empty

theorem startOnFit_bursts (pump : (s.pump (s.chan d).pos).state = .idle) (full : 0 < (s.pump (s.chan d).pos).charge) :
    s.startOnFit d = s.sendBurst d := by
  rw [State.startOnFit, pump]
  exact if_neg full.ne'

/-- Settles O51: the dispensing stop, then the canister, then the pump decides. -/
theorem startCheckFollowsCanisterAndPump : Obligations.StartCheckFollowsCanisterAndPump := by
  intro s d t tin
  refine ⟨startCheck_cancel tin, startCheck_guard tin, startCheck_halted tin, fun stop mode =>
    ⟨startCheck_settled tin stop mode, startCheck_recirc tin stop mode, fun fit => ?_⟩⟩
  rw [startCheck_fit tin stop mode fit]
  exact ⟨startOnFit_joins, startOnFit_charges, startOnFit_bursts⟩

/-! ### A start check changes no other channel -/

theorem head_askRecirc (s : State) (p : Pos) : head (s.askRecirc p) = head s := by
  unfold State.askRecirc
  dsimp only
  split
  · exact head_examineRecirc _ p
  · rfl

theorem chan_setChan_other {k : ChanId} (other : k ≠ d) (c : Channel) : (s.setChan d c).chan k = s.chan k :=
  (chan_setChan s d k c).trans (if_neg other.symm)

theorem chan_startOnFit_other {k : ChanId} (other : k ≠ d) : (s.startOnFit d).chan k = s.chan k := by
  unfold State.startOnFit
  split
  · exact chan_setChan_other other _
  · split
    · exact chan_setChan_other other _
    · exact chan_setChan_other other _
  · rfl
  · rfl

theorem chan_startCheck_other {k : ChanId} (other : k ≠ d) : (s.startCheck d).chan k = s.chan k := by
  unfold State.startCheck
  split
  · rfl
  · split
    · exact chan_setChan_other other _
    · exact chan_setChan_other other _
    · split
      · rfl
      · split
        · exact (chan_of_head (head_askRecirc _ _) k).trans (chan_setChan_other other _)
        · exact chan_setChan_other other _
        · exact chan_startOnFit_other other
        · exact chan_startOnFit_other other
        · rfl
        · rfl

/-! ### The channels waiting for a position -/

/-- A channel in the waiting state `st` for position `p` passes its start check, any other is left (R105, R106). -/
def goOn (st : ChanState) (p : Pos) (s : State) (d : ChanId) : State :=
  if (s.chan d).state = st ∧ (s.chan d).pos = p then s.startCheck d else s

variable {st : ChanState}

theorem resumeCharge_eq (s : State) (p : Pos) : s.resumeCharge p = allChans.foldl (goOn .waitCharge p) s := by
  simp only [State.resumeCharge, Bool.and_eq_true, beq_iff_eq]
  rfl

theorem resumeRecirc_eq (s : State) (p : Pos) : s.resumeRecirc p = allChans.foldl (goOn .waitRecirc p) s := by
  simp only [State.resumeRecirc, Bool.and_eq_true, beq_iff_eq]
  rfl

theorem goOn_left (elsewhere : (s.chan d).state = st → (s.chan d).pos ≠ p) : goOn st p s d = s :=
  if_neg fun ⟨state, pos⟩ => elsewhere state pos

theorem foldl_goOn_left {l : List ChanId} (elsewhere : ∀ k ∈ l, (s.chan k).state = st → (s.chan k).pos ≠ p) :
    l.foldl (goOn st p) s = s := by
  induction l with
  | nil => rfl
  | cons k l ih =>
    obtain ⟨here, rest⟩ := List.forall_mem_cons.1 elsewhere
    rw [List.foldl_cons, goOn_left here, ih rest]

/-- Of the channels of a list only `d` waits: those before it are left, and those after it are as they were. -/
theorem foldl_goOn_one {l : List ChanId} (once : l.Nodup) (mem : d ∈ l) (state : (s.chan d).state = st)
    (pos : (s.chan d).pos = p) (others : ∀ k, k ≠ d → (s.chan k).state = st → (s.chan k).pos ≠ p) :
    l.foldl (goOn st p) s = s.startCheck d := by
  obtain ⟨before, after, rfl⟩ := List.append_of_mem mem
  obtain ⟨notAfter, notBefore⟩ : d ∉ after ∧ d ∉ before := by
    rw [List.nodup_middle, List.nodup_cons, List.mem_append] at once
    exact ⟨fun m => once.1 (.inr m), fun m => once.1 (.inl m)⟩
  have skips : before.foldl (goOn st p) s = s :=
    foldl_goOn_left fun k hk => others k (ne_of_mem_of_not_mem hk notBefore)
  have goes : goOn st p s d = s.startCheck d := if_pos ⟨state, pos⟩
  rw [List.foldl_append, skips, List.foldl_cons, goes]
  refine foldl_goOn_left fun k hk => ?_
  have other : k ≠ d := ne_of_mem_of_not_mem hk notAfter
  rw [chan_startCheck_other other]
  exact others k other

theorem allChans_goOn_one (state : (s.chan d).state = st) (pos : (s.chan d).pos = p)
    (others : ∀ k, k ≠ d → (s.chan k).state = st → (s.chan k).pos ≠ p) :
    allChans.foldl (goOn st p) s = s.startCheck d :=
  foldl_goOn_one (by decide) (by simp [allChans_eq]) state pos others

/-! ### The reports of CHARGE, RECIRC and HALT -/

theorem chargeDone_charging (pump : (s.pump p).state = .charging) : s.chargeDone p =
    ((s.setPump p { charge := (s.can p).kept.stroke, state := .idle }).examineRecirc p).resumeCharge p := by
  rw [State.chargeDone, pump]
  rfl

theorem chargeDone_other (pump : (s.pump p).state ≠ .charging) : s.chargeDone p = s := by
  unfold State.chargeDone
  split
  · contradiction
  all_goals rfl

theorem recircDone_recirc (pump : (s.pump p).state = .recirc) (can : (s.can p).state = .recirc) : s.recircDone p =
    ((s.setPump p { charge := (s.can p).kept.stroke, state := .idle }).setCan p (s.can p).toReady).resumeRecirc p := by
  rw [State.recircDone, pump, can]

theorem recircDone_late (pump : (s.pump p).state = .recirc) (can : (s.can p).state ≠ .recirc) : s.recircDone p =
    (s.setPump p { charge := (s.can p).kept.stroke, state := .idle }).examineRecirc p := by
  rw [State.recircDone, pump]
  dsimp only
  split
  · contradiction
  · rfl

theorem recircDone_other (pump : (s.pump p).state ≠ .recirc) : s.recircDone p = s := by
  unfold State.recircDone
  split
  · contradiction
  all_goals rfl

theorem burstDone_other (pump : (s.pump p).state ≠ .burst) (n : Nat) : s.burstDone p n = s := by
  unfold State.burstDone
  split
  · contradiction
  all_goals rfl

theorem haltReport_charging (pump : (s.pump p).state = .charging) (n : Nat) : s.haltReport p n =
    ((s.setPump p { charge := 0, state := .idle }).examineRecirc p).resumeCharge p := by
  rw [State.haltReport, pump]
  rfl

theorem haltReport_recirc (pump : (s.pump p).state = .recirc) (n : Nat) : s.haltReport p n =
    (s.setPump p { charge := 0, state := .idle }).examineRecirc p := by
  rw [State.haltReport, pump]
  rfl

theorem haltReport_idle (pump : (s.pump p).state = .idle) (n : Nat) : s.haltReport p n = s := by
  rw [State.haltReport, pump]

/-- Settles O53: each report by the state of its pump, then the channels waiting for the position. -/
theorem pumpReportsEndTheirOperation : Obligations.PumpReportsEndTheirOperation := by
  intro s p on
  have charged {v : State} (h : s.chargeDone p = v) : exec (.chargeDone p) s = .next v :=
    congrArg _ ((whenActive_on on _).trans h)
  have stirred {v : State} (h : s.recircDone p = v) : exec (.recircDone p) s = .next v :=
    congrArg _ ((whenActive_on on _).trans h)
  have dosed {n : Nat} {v : State} (h : s.burstDone p n = v) : exec (.burstDone p n) s = .next v :=
    congrArg _ ((whenActive_on on _).trans h)
  have stopped {n : Nat} {v : State} (h : s.haltReport p n = v) : exec (.haltReport p n) s = .next v :=
    congrArg _ ((whenActive_on on _).trans h)
  intro full empty
  refine ⟨fun pump => ⟨charged (chargeDone_charging pump), fun n => stopped (haltReport_charging pump n)⟩,
    fun pump => ⟨fun can => stirred (recircDone_recirc pump can), fun can => stirred (recircDone_late pump can),
      fun n => stopped (haltReport_recirc pump n)⟩,
    fun pump n => dosed (burstDone_other pump n), fun pump => charged (chargeDone_other pump),
    fun pump => stirred (recircDone_other pump), fun pump n => stopped (haltReport_idle pump n),
    fun st elsewhere => ?_, fun st d state pos others => ?_, ?_⟩
  · have left : allChans.foldl (goOn st p) s = s := foldl_goOn_left fun d _ => elsewhere d
    exact ⟨by rintro rfl; rw [resumeCharge_eq, left], by rintro rfl; rw [resumeRecirc_eq, left]⟩
  · have goes : allChans.foldl (goOn st p) s = s.startCheck d := allChans_goOn_one state pos others
    exact ⟨by rintro rfl; rw [resumeCharge_eq, goes], by rintro rfl; rw [resumeRecirc_eq, goes]⟩
  · intro resume
    have inTurn (st : ChanState) : goOn st p = resume st := rfl
    simp only [resumeCharge_eq, resumeRecirc_eq, inTurn, allChans, List.foldl_cons, List.foldl_nil, and_self]

end Sys2Proof.Channels
end

section
/-! The assignment of components to channels (R103), the end of dispensing (R110, R111), the end of a capture (R98, R119,
R120), and the statement O54. -/

namespace Sys2Proof.Captures

open Sys2Proof Sys2Proof.Machine Sys2Proof.Bursts Sys2Proof.Timers Sys2Proof.Schedule

variable {s : State} {t : TinCtx} {j : Job} {d : ChanId} {i n : Nat} {ks xs : List Nat}

/-! ### The next component to assign -/

theorem held_false_iff : s.held i = false ↔ ∀ k, (s.chan k).state ≠ .free → (s.chan k).comp ≠ i := by
  rw [← Bool.not_eq_true, State.held, exists_chan]
  simp

/-- Of the components from number `n` on, with step counts `ks` and dispensed counts `xs`, the one at place `i` has steps
to dispense and no channel holds it. -/
def Due (s : State) (n : Nat) (ks xs : List Nat) (i : Nat) : Prop :=
  xs.getD i 0 < ks.getD i 0 ∧ s.held (n + i) = false

theorem due_zero {k x : Nat} : Due s n (k :: ks) (x :: xs) 0 ↔ (decide (x < k) && !s.held n) = true := by
  simp [Due]

theorem due_succ {k x : Nat} : Due s n (k :: ks) (x :: xs) (i + 1) ↔ Due s (n + 1) ks xs i := by
  simp [Due, Nat.add_right_comm, ← Nat.add_assoc]

theorem unassignedFrom_none_iff (length : xs.length = ks.length) :
    s.unassignedFrom n ks xs = none ↔ ∀ i, ¬ Due s n ks xs i := by
  induction ks generalizing xs n with
  | nil =>
    obtain rfl := List.eq_nil_of_length_eq_zero length
    simp [State.unassignedFrom, Due]
  | cons k ks ih =>
    obtain ⟨x, xs, rfl⟩ := List.exists_cons_of_length_eq_add_one length
    rw [State.unassignedFrom, ← Nat.and_forall_add_one]
    simp only [due_succ, due_zero, ← ih (Nat.succ.inj length)]
    split
    · next here => simp [here]
    · next elsewhere => simp [elsewhere]

theorem unassignedFrom_first (length : xs.length = ks.length) (due : Due s n ks xs i)
    (first : ∀ k, k < i → ¬ Due s n ks xs k) : s.unassignedFrom n ks xs = some (n + i) := by
  induction ks generalizing xs n i with
  | nil => exact absurd due.1 (by simp)
  | cons k ks ih =>
    obtain ⟨x, xs, rfl⟩ := List.exists_cons_of_length_eq_add_one length
    rw [State.unassignedFrom]
    cases i with
    | zero => exact if_pos (due_zero.1 due)
    | succ i =>
      have later := ih (Nat.succ.inj length) (due_succ.1 due) fun m hm => mt due_succ.2 (first _ (Nat.succ_lt_succ hm))
      rw [if_neg (mt due_zero.2 (first 0 i.succ_pos)), later, Nat.add_right_comm, Nat.add_assoc]

/-- A component of the tin has steps to dispense and no channel holds it (R103). -/
def ToDo (s : State) (t : TinCtx) (i : Nat) : Prop :=
  t.dispensed.getD i 0 < t.steps.getD i 0 ∧ ∀ k, (s.chan k).state ≠ .free → (s.chan k).comp ≠ i

theorem due_iff_toDo : Due s 0 t.steps t.dispensed i ↔ ToDo s t i := by
  rw [Due, Nat.zero_add, held_false_iff, ToDo]

section
variable (tin : s.tin = some t) (length : t.dispensed.length = t.steps.length)
include tin length

theorem unassigned_none_iff : s.unassigned = none ↔ ∀ i, ¬ ToDo s t i := by
  rw [State.unassigned, tin]
  simp only [← due_iff_toDo, unassignedFrom_none_iff length]

theorem unassigned_first (due : ToDo s t i) (first : ∀ k, k < i → ¬ ToDo s t k) : s.unassigned = some i := by
  rw [State.unassigned, tin]
  simp only [← due_iff_toDo] at due first
  simpa using unassignedFrom_first length due first

/-! ### The assignment -/

theorem assignTo_nothing (done : ∀ i, ¬ ToDo s t i) : s.assignTo d = s := by
  rw [State.assignTo, tin, (unassigned_none_iff tin length).2 done]

theorem assignTo_first {c : Component} (job : s.job? t.handle = some j) (comp : j.comps[i]? = some c)
    (due : ToDo s t i) (first : ∀ k, k < i → ¬ ToDo s t k) :
    s.assignTo d = (s.setChan d
      { comp := i, pos := c.pos, remaining := t.steps.getD i 0 - t.dispensed.getD i 0, burst := none, state := .done
        dwellTimer := none }).startCheck d := by
  simp only [State.assignTo, tin, unassigned_first tin length due first, job, comp]

/-! ### The end of dispensing -/

/-- The dispensing of a tin is at its end (R110). -/
def Ended (s : State) (t : TinCtx) : Prop :=
  s.station = .dispensing ∧ t.stop ≠ .guard ∧
    (∀ k, ¬ (s.chan k).state ∈ [ChanState.waitRecirc, .waitCharge, .burst, .dwell]) ∧
    ((∀ i, ¬ ToDo s t i) ∨ t.stop = .cancel)

/-- The end of dispensing is examined for `Ended` (R110). -/
theorem ends_iff : (s.station == .dispensing && t.stop != .guard && !s.anyWorking &&
    (s.unassigned.isNone || t.stop == .cancel)) = true ↔ Ended s t := by
  have rest : s.anyWorking = false ↔ ∀ k, ¬ (s.chan k).state ∈ [ChanState.waitRecirc, .waitCharge, .burst, .dwell] := by
    rw [← Bool.not_eq_true, State.anyWorking, exists_chan]
    simp only [working_iff, not_exists]
  simp only [Bool.and_eq_true, Bool.or_eq_true, beq_iff_eq, bne_iff_ne, Bool.not_eq_true', rest,
    Option.isNone_iff_eq_none, unassigned_none_iff tin length, and_assoc, Ended]

theorem endDispensing_goesOn (on : ¬ Ended s t) : s.endDispensing = s := by
  rw [State.endDispensing, tin]
  exact if_neg (mt (ends_iff tin length).1 on)

/-- The route decides between the drip and HANDOFF (R110). -/
theorem endDispensing_ends (ended : Ended s t) : s.endDispensing =
    if t.route = .normal then
      ({ s.freeChans with station := .drip, dripTimer := some 400 }).modTin fun t => { t with stage := .drip }
    else s.freeChans.handoffReject := by
  rw [State.endDispensing, tin]
  dsimp only
  rw [if_pos ((ends_iff tin length).2 ended)]
  cases t.route <;> rfl

/-- A NORMAL tin drips for 400 ms (R111). -/
theorem endDispensing_normal (ended : Ended s t) (route : t.route = .normal) : s.endDispensing = { s with
    channels := Vector.replicate 4 Channel.free, station := .drip, dripTimer := some 400
    tin := some { t with stage := .drip } } := by
  rw [endDispensing_ends tin length ended, if_pos route, State.modTin, freeChans_tin, tin]
  rfl

/-- A REJECT tin goes to HANDOFF and claims the lidder (R110, R112). -/
theorem endDispensing_reject (ended : Ended s t) (route : t.route = .reject)
    (fresh : Source.station ∉ s.lidder.claims) : s.endDispensing = State.examineLidder { s with
      channels := Vector.replicate 4 Channel.free, station := .handoff, tin := some { t with stage := .lidWait }
      lidder := { s.lidder with claims := s.lidder.claims ++ [Source.station] } } := by
  rw [endDispensing_ends tin length ended, if_neg (by simp [route])]
  exact handoffReject_eq (u := s.freeChans) tin fresh

end

/-- A FREE channel takes the next component, any other is left (R103). -/
def assign (s : State) (d : ChanId) : State := if (s.chan d).state = .free then s.assignTo d else s

theorem assignAll_eq (s : State) : s.assignAll = allChans.foldl assign s := by
  simp only [State.assignAll, beq_iff_eq]
  rfl

/-! ### The end of a capture -/

theorem exec_reading {mass : Nat} (on : s.power = .on) (fits : mass ≤ 100000000) (stable overload : Bool) :
    exec (.reading mass stable overload) s = .next (s.reading mass stable overload) := by
  have fits : mass ≤ Config.maxMass := fits
  show execReading mass stable overload s = _
  rw [execReading, if_pos fits, whenActive_on on]

/-- A reading that is stable and not overloaded is taken on a line that is not HALTED (R119). -/
theorem reading_taken (mode : s.line.mode ≠ .halted) (mass : Nat) :
    s.reading mass true false = s.endCapture (some mass) := if_pos (by simp [halted_false mode])

theorem reading_discarded {mass : Nat} {stable overload : Bool}
    (h : stable = false ∨ overload = true ∨ s.line.mode = .halted ∨ s.capture = .none) :
    s.reading mass stable overload = s := by
  have idle (capture : s.capture = .none) : s.endCapture (some mass) = s := by rw [State.endCapture, capture]
  unfold State.reading
  split
  · next used =>
    simp only [Bool.and_eq_true, Bool.not_eq_true', ← Bool.not_eq_true, halted_iff] at used
    obtain ⟨⟨isStable, inRange⟩, mode⟩ := used
    rcases h with unstable | overloaded | halted | none
    · simp [unstable] at isStable
    · exact absurd overloaded inRange
    · exact absurd halted mode
    · exact idle none
  · rfl

theorem exec_scaleSettleTimeout (on : s.power = .on) : exec .scaleSettleTimeout s = .next s.scaleTimeout :=
  congrArg _ (whenActive_on on _)

theorem scaleTimeout_runs (timer : s.scaleTimer ≠ none) : s.scaleTimeout = s.endCapture none :=
  if_pos (Option.isSome_iff_ne_none.2 timer)

theorem scaleTimeout_stopped (timer : s.scaleTimer = none) : s.scaleTimeout = s := if_neg (by simp [timer])

/-- The part when a tare capture has ended (R98, R120). -/
theorem endCapture_tare (capture : s.capture = .tare) (mass : Option Nat) : s.endCapture mass =
    ({ s with
      capture := .none, scaleTimer := none, gateOpen := false, station := .dispensing
      tin := s.tin.map fun t : TinCtx =>
        { t with tare := mass, stage := .dispensing } }).assignAll.endDispensing.select := by
  have tin : ((s.tin.map fun t : TinCtx => { t with tare := mass }).map fun t => { t with stage := .dispensing }) =
      s.tin.map fun t : TinCtx => { t with tare := mass, stage := .dispensing } := Option.map_map ..
  rw [State.endCapture, capture, ← tin]
  rfl

/-- Settles O54: what ends a capture; then the first component that is due goes to the channel, and with none due the dispensing is at its end. -/
theorem tareEndsAndDispensingBegins : Obligations.TareEndsAndDispensingBegins := by
  refine ⟨fun s on => ?_, fun s => ?_, fun s d t j tin job steps dispensed => ?_⟩
  · intro go
    refine ⟨fun mass fits => ⟨fun capture mode => ?_, fun stable overload discarded => ?_⟩, fun capture timer => ?_,
      fun timer => ?_⟩
    · rw [exec_reading on fits, reading_taken mode, endCapture_tare capture]
    · rw [exec_reading on fits, reading_discarded discarded]
    · rw [exec_scaleSettleTimeout on, scaleTimeout_runs timer, endCapture_tare capture]
    · rw [exec_scaleSettleTimeout on, scaleTimeout_stopped timer]
  · intro inTurn
    have same : assign = inTurn := rfl
    simp only [assignAll_eq, same, allChans, List.foldl_cons, List.foldl_nil]
  · have length : t.dispensed.length = t.steps.length := dispensed.trans steps.symm
    exact ⟨fun _ _ comp due first => assignTo_first tin length job comp due first, assignTo_nothing tin length,
      endDispensing_goesOn tin length, endDispensing_normal tin length, endDispensing_reject tin length⟩

end Sys2Proof.Captures
end

section
/-! The suspension of a job (R67, R148), the end of a gross capture (R122), the judgement (R124), the counted and the
rejected tin (R125, R126), and the statement O55. -/

namespace Sys2Proof.Weighing

open Sys2Proof Sys2Proof.Machine Sys2Proof.Submit Sys2Proof.Stock Sys2Proof.Bursts Sys2Proof.Captures

variable {s : State} {t x : TinCtx} {j : Job} {h : Handle} {w n : Bool} {mass : Option Nat}

/-! ### The suspension -/

theorem suspend_eq (job : s.job? h = some j) (cause : Cause) : s.suspend h cause =
    ((s.putJob h { j with state := .suspended, cause := some cause }).notify j.owner
      (.jobState h .suspended cause)).examinePark := by
  rw [State.suspend, modJob_eq job]
  exact congrArg State.examinePark (notifyJob_eq (job?_putJob s h _) cause)

/-- The line does not park while a tin stands at the station (R148). -/
theorem examinePark_occupied (tin : s.tin = some t) : s.examinePark = s := by
  have occupied : s.parkCondition = false := by simp [State.parkCondition, State.tins, tin]
  rw [State.examinePark, occupied, Bool.and_false]
  rfl

theorem head_suspended (s : State) (h : Handle) (f : Job → Job) (cause : Cause) :
    head ((s.modJob h f).notifyJob h cause) = head s := (head_notifyJob _ _ _).trans (head_modJob s h f)

/-- A suspension is no event of the park condition while a tin stands at the station (R67, R148). -/
theorem suspend_occupied (tin : s.tin = some t) (h : Handle) (cause : Cause) : s.suspend h cause =
    (s.modJob h fun j => { j with state := .suspended, cause := some cause }).notifyJob h cause :=
  examinePark_occupied ((congrArg Head.tin (head_suspended s h _ cause)).trans tin)

theorem head_failAttempt (s : State) (t : TinCtx) : head (s.failAttempt t) = head s := by
  unfold State.failAttempt
  split
  · rfl
  · split
    · rfl
    · exact (head_joinQueue _ _).trans (head_modJob s _ _)

/-! ### The weighed tin -/

/-- The part when a capture has ended and left the station tin as `x` (R118). -/
def weighed (s : State) (x : TinCtx) : State := { s with capture := .none, scaleTimer := none, tin := some x }

theorem job?_weighed (s : State) (x : TinCtx) (h : Handle) : (weighed s x).job? h = s.job? h := rfl

theorem modJob_weighed (s : State) (x : TinCtx) (h : Handle) (f : Job → Job) :
    (weighed s x).modJob h f = weighed (s.modJob h f) x := by
  unfold State.modJob
  rw [job?_weighed]
  cases s.job? h <;> rfl

theorem notifyJob_weighed (s : State) (x : TinCtx) (h : Handle) (cause : Cause) :
    (weighed s x).notifyJob h cause = weighed (s.notifyJob h cause) x := by
  unfold State.notifyJob
  rw [job?_weighed]
  cases s.job? h <;> rfl

theorem joinQueue_weighed (s : State) (x : TinCtx) (h : Handle) :
    (weighed s x).joinQueue h = weighed (s.joinQueue h) x := by
  unfold State.joinQueue
  rw [apply_ite (weighed · x)]
  rfl

theorem failAttempt_weighed (s : State) (x t : TinCtx) : (weighed s x).failAttempt t = weighed (s.failAttempt t) x := by
  unfold State.failAttempt
  rw [job?_weighed]
  cases s.job? t.handle with
  | none => rfl
  | some j => simp only [modJob_weighed, joinQueue_weighed, apply_ite (weighed · x)]

/-- With a tin at the station before and after, a suspension is the same beside the weighing of the tin. -/
theorem suspend_weighed (tin : s.tin = some t) (x : TinCtx) (h : Handle) (cause : Cause) :
    (weighed s x).suspend h cause = weighed (s.suspend h cause) x := by
  rw [suspend_occupied (s := weighed s x) rfl, suspend_occupied tin, modJob_weighed, notifyJob_weighed]

/-! ### The counted and the rejected tin -/

/-- A counted tin waits for a mixer (R112, R125). -/
theorem countTin_weighed (job : s.job? x.handle = some j) : (weighed s x).countTin x j w n =
    ({ weighed s { x with marks := j.marks w n, stage := .mixWait } with station := .handoff }.putJob x.handle { j with
      comps := j.comps.map fun c : Component => { c with cum := cumSteps (j.counted + 1) c.exact (c.qSnap * j.vref) }
      counted := j.counted + 1
      results := j.results.modify (x.index - 1) fun e : TinResult => { e with
        outcome := .inFlight, steps := some x.steps, expected := x.expected, net := x.net
        marks := some (j.marks w n) } }).examineTransfer := by
  have marked : (weighed s { x with marks := j.marks w n }).job? x.handle = some j := job
  exact congrArg State.handoffNormal (modJob_eq marked _)

theorem handoffReject_weighed (fresh : Source.station ∉ s.lidder.claims) : (weighed s x).handoffReject =
    State.examineLidder { s with
      capture := .none, scaleTimer := none, station := .handoff, tin := some { x with stage := .lidWait }
      lidder := { s.lidder with claims := s.lidder.claims ++ [Source.station] } } :=
  handoffReject_eq (u := weighed s x) rfl fresh

/-- A rejected tin claims the lidder (R126, R137). Its attempt fails and its job is suspended beside the weighing of the
tin: neither reads what the capture has written of it. -/
theorem rejectTin_weighed (tin : s.tin = some t) (fresh : Source.station ∉ s.lidder.claims) (cause : Cause) :
    (weighed s x).rejectTin x j w n cause = State.examineLidder { (s.failAttempt x).suspend x.handle cause with
      capture := .none, scaleTimer := none, station := .handoff
      tin := some { x with marks := j.marks w n, route := .reject, word := some .reject, stage := .lidWait }
      lidder := { s.lidder with claims := s.lidder.claims ++ [Source.station] } } := by
  have tinF : (s.failAttempt x).tin = some t := (congrArg Head.tin (head_failAttempt s x)).trans tin
  have lidder : ((s.failAttempt x).suspend x.handle cause).lidder = s.lidder := by
    rw [suspend_occupied tinF]
    exact congrArg Head.lidder ((head_suspended _ _ _ _).trans (head_failAttempt s x))
  have freshF : Source.station ∉ ((s.failAttempt x).suspend x.handle cause).lidder.claims := by rwa [lidder]
  have turned : ((weighed s x).modTin fun x => { x with marks := j.marks w n, route := .reject, word := some .reject }) =
      weighed s { x with marks := j.marks w n, route := .reject, word := some .reject } := rfl
  rw [State.rejectTin, turned, failAttempt_weighed, suspend_weighed tinF, handoffReject_weighed freshF, lidder]

/-! ### The judgement -/

theorem verdict_low {v : Settings} (low : t.expected.getD 0 < v.weighFloor) : verdict v t = .notChecked := if_pos low

section
variable {v : Settings} (floor : v.weighFloor ≤ t.expected.getD 0)
include floor

theorem verdict_unweighed (net : netOf t.tare t.gross = none) : verdict v t = .weighNone := by
  rw [verdict, if_neg floor.not_gt]
  unfold netOf at net
  split
  · next tare gross => simp [tare, gross] at net
  · rfl

theorem verdict_weighed {z : Int} (net : netOf t.tare t.gross = some z) : verdict v t =
    if v.allowance (t.expected.getD 0) < (z - (t.expected.getD 0 : Nat)).natAbs then .weighOut else .pass := by
  rw [verdict, if_neg floor.not_gt]
  unfold netOf at net
  split
  · next a g tare gross =>
    rw [tare, gross] at net
    cases net
    rfl
  · next absent =>
    split at net
    · next a g tare gross => exact absurd gross (absent a g tare)
    · cases net

end

/-- A gross capture ends with the net mass written and the tin judged (R122). -/
theorem endCapture_gross (capture : s.capture = .gross) (tin : s.tin = some t) (mass : Option Nat) :
    s.endCapture mass = (weighed s { t with gross := mass, net := netOf t.tare mass }).judge.select := by
  rw [State.endCapture, capture]
  dsimp only
  rw [State.endGross, State.modTin, State.stopCapture]
  dsimp only
  rw [tin]
  rfl

/-- The command that ends a capture with `mass` leaves the part as `v`: a READING that is taken, or the expiry of the
scale settle timer (R119, R122). -/
def EndsAs (s : State) (v : State) : Option Nat → Prop
  | some m => m ≤ 100000000 → s.line.mode ≠ .halted → exec (.reading m true false) s = .next v
  | none => s.scaleTimer ≠ none → exec .scaleSettleTimeout s = .next v

theorem endsAs_endCapture (on : s.power = .on) : EndsAs s (s.endCapture mass) mass := by
  cases mass with
  | some m => exact fun fits mode => by rw [exec_reading on fits, reading_taken mode]
  | none => exact fun timer => by rw [exec_scaleSettleTimeout on, scaleTimeout_runs timer]

section
variable (tin : s.tin = some t) (job : s.job? t.handle = some j)
include tin job

theorem judge_notChecked (outcome : verdict s.line.settings t = .notChecked) : s.judge = s.countTin t j false true := by
  simp only [State.judge, tin, job, outcome]

theorem judge_pass (outcome : verdict s.line.settings t = .pass) : s.judge = s.countTin t j false false := by
  simp only [State.judge, tin, job, outcome]

theorem judge_weighNone (outcome : verdict s.line.settings t = .weighNone) : s.judge =
    if j.dWeighNone = .mark then s.countTin t j false true else s.rejectTin t j false true .weighNoneStop := by
  cases disposition : j.dWeighNone <;> simp [State.judge, tin, job, outcome, disposition]

theorem judge_weighOut (outcome : verdict s.line.settings t = .weighOut) : s.judge =
    if j.dWeighOut = .mark then s.countTin t j true false else s.rejectTin t j true false .weighStop := by
  cases disposition : j.dWeighOut <;> simp [State.judge, tin, job, outcome, disposition]

end

/-- Settles O55: the judgement decides between the counted and the rejected tin. -/
theorem grossIsJudged : Obligations.GrossIsJudged := by
  refine ⟨fun s h j cause job => suspend_eq job cause, fun s mass t j on capture tin job fresh => ?_⟩
  intro run e net allowed marks b t2 counted rejected
  have ends {v : State} (judged : (weighed s t2).judge = v) : run v.select := by
    have left : EndsAs s (s.endCapture mass) mass := endsAs_endCapture on
    have ended : s.endCapture mass = (weighed s t2).judge.select := endCapture_gross capture tin mass
    rwa [ended, judged] at left
  have counts (w n : Bool) (judged : (weighed s t2).judge = (weighed s t2).countTin t2 j w n) : run (counted w n) :=
    ends (judged.trans (countTin_weighed job))
  have rejects (w n : Bool) (cause : Cause)
      (judged : (weighed s t2).judge = (weighed s t2).rejectTin t2 j w n cause) : run (rejected w n cause) :=
    ends (judged.trans (rejectTin_weighed tin fresh cause))
  refine ⟨fun low => ?_, fun floor => ⟨fun absent => ?_, fun z present => ?_⟩⟩
  · exact counts false true (judge_notChecked rfl job (verdict_low low))
  · have judged := judge_weighNone (s := weighed s t2) rfl job (verdict_unweighed floor absent)
    exact ⟨fun mark => counts false true (judged.trans (if_pos mark)),
      fun stop => rejects false true _ (judged.trans (if_neg (by simp [stop])))⟩
  · have judged := verdict_weighed (t := t2) floor present
    refine ⟨fun within => ?_, fun out => ?_⟩
    · exact counts false false (judge_pass rfl job (judged.trans (if_neg within.not_gt)))
    · have judged := judge_weighOut (s := weighed s t2) rfl job (judged.trans (if_pos out))
      exact ⟨fun mark => counts true false (judged.trans (if_pos mark)),
        fun stop => rejects true false _ (judged.trans (if_neg (by simp [stop])))⟩

end Sys2Proof.Weighing
end

section
/-! The mixers: transfer, mixing and CLAMP-FAULT (R130 to R133, R137), MIXER-RETURN (R134), and the statements O42 and
O59. -/

namespace Sys2Proof.Mixers

open Sys2Proof Sys2Proof.Machine Sys2Proof.Submit Sys2Proof.Requests Sys2Proof.Schedule Sys2Proof.Timers

variable {s : State} {m : MixerId} {t : TinCtx}

/-- A machine event of a part that runs has its effect (R156). -/
theorem next_whenActive (on : s.power = .on) (f : State → State) :
    (.next (s.whenActive f) : Host.Outcome State Fault Refusal) = .next (f s) := congrArg _ (whenActive_on on f)

@[simp] theorem mixer_setMixer_same (s : State) (m : MixerId) (v : Mixer) : (s.setMixer m v).mixer m = v := by
  cases m <;> rfl

/-! ### The transfer conditions -/

/-- A mixer is LOADING for the tin (R130). -/
def LoadingFor (s : State) (t : TinCtx) (n : MixerId) : Prop :=
  (s.mixer n).state = .loading ∧ (s.mixer n).expected = some (t.handle, t.index)

theorem loadingFor_iff (s : State) (t : TinCtx) (n : MixerId) :
    (s.mixer n).loadingFor t = true ↔ LoadingFor s t n := by
  simp [Mixer.loadingFor, LoadingFor]

/-- The station tin `t` is to be sent to a mixer (R130). -/
structure TransferDue (s : State) (t : TinCtx) : Prop where
  station : s.station = .handoff
  stage : t.stage = .mixWait
  unsent : ∀ n, ¬ LoadingFor s t n
  mode : s.line.mode ≠ .halted

theorem examineTransfer_sends (tin : s.tin = some t) (due : TransferDue s t) : s.examineTransfer =
    if s.m1.state = .idle then s.startTransfer .m1 t else if s.m2.state = .idle then s.startTransfer .m2 t else s := by
  have unsent (n : MixerId) : (s.mixer n).loadingFor t = false :=
    Bool.eq_false_iff.2 fun loading => due.unsent n ((loadingFor_iff s t n).1 loading)
  have unsent1 : s.m1.loadingFor t = false := unsent .m1
  have unsent2 : s.m2.loadingFor t = false := unsent .m2
  simp [State.examineTransfer, tin, due.station, due.stage, unsent1, unsent2, halted_false due.mode]

theorem examineTransfer_empty (tin : s.tin = none) : s.examineTransfer = s := by rw [State.examineTransfer, tin]

theorem examineTransfer_stays (tin : s.tin = some t) (rest : ¬ TransferDue s t) : s.examineTransfer = s := by
  rw [State.examineTransfer, tin]
  refine if_neg fun due => rest ?_
  simp only [Bool.and_eq_true, beq_iff_eq, Bool.not_eq_true', Bool.eq_false_iff, ne_eq] at due
  obtain ⟨⟨⟨⟨station, stage⟩, unsent1⟩, unsent2⟩, running⟩ := due
  refine ⟨station, stage, fun n loading => ?_, mt (halted_iff s).2 running⟩
  cases n with
  | m1 => exact unsent1 ((loadingFor_iff s t .m1).2 loading)
  | m2 => exact unsent2 ((loadingFor_iff s t .m2).2 loading)

/-! ### The mix time -/

theorem mixTimer_eq (s : State) (h : Handle) :
    s.mixTimer h = if s.line.mode = .halted then none else some (s.mixMs h) := if_congr (halted_iff s) rfl rfl

/-- The mix time is that of the first class whose code the job names (R81, R131). -/
theorem mixMs_eq {h : Handle} {j : Job} {pre post : List TinClass} {c : TinClass} (job : s.job? h = some j)
    (classes : s.classes = pre ++ c :: post) (code : c.code = j.cls) (first : ∀ x ∈ pre, x.code ≠ j.cls) :
    s.mixMs h = c.mixTime * 1000 := by
  have found : s.classes.find? (fun c => c.code == j.cls) = some c :=
    List.find?_eq_some_iff_append.2 ⟨by simp [code], pre, post, classes, by simpa using first⟩
  simp only [State.mixMs, job, found]

/-! ### Loading and mixing -/

/-- The mixer that mixes the tin `t` from full (R131, R134). -/
def mixing (s : State) (t : TinCtx) : Mixer :=
  { state := .mixing, tin := some { t with stage := .mixing }, expected := none, timer := s.mixTimer t.handle }

theorem loaded_takes (loading : (s.mixer m).state = .loading) (tin : s.tin = some t) : s.loaded m =
    (State.examinePark { s.setMixer m (mixing s t) with station := .idle, tin := none }).select := by
  simp only [State.loaded, loading, tin]
  rfl

theorem loaded_ignored (other : (s.mixer m).state ≠ .loading) : s.loaded m = s := by
  unfold State.loaded
  split
  · next loading _ => exact absurd loading other
  · rfl

/-- A source that becomes ready joins the claims at their tail (R137). -/
theorem joinClaim_fresh {src : Source} (fresh : src ∉ s.lidder.claims) : s.joinClaim src =
    State.examineLidder { s with lidder := { s.lidder with claims := s.lidder.claims ++ [src] } } := by
  simp [State.joinClaim, fresh]

theorem mixExpiry_holds (state : (s.mixer m).state = .mixing) (timer : (s.mixer m).timer ≠ none)
    (fresh : mixerSource m ∉ s.lidder.claims) : s.mixExpiry m =
      (State.examineLidder { s.setMixer m
        { state := .holding, tin := (s.mixer m).tin.map fun t : TinCtx => { t with stage := .lidWait }
          expected := none, timer := none } with
        lidder := { s.lidder with claims := s.lidder.claims ++ [mixerSource m] } }).select := by
  rw [State.mixExpiry, if_pos (by simp [state, Option.isSome_iff_ne_none.2 timer]),
    joinClaim_fresh (by rwa [setMixer_lidder]), setMixer_lidder]

theorem mixExpiry_stopped (h : (s.mixer m).state ≠ .mixing ∨ (s.mixer m).timer = none) : s.mixExpiry m = s :=
  if_neg (not_expires h)

/-! ### CLAMP-FAULT -/

/-- An IDLE or a MIXING mixer goes OUT and nothing follows (R133). -/
theorem clampFault_out (state : (s.mixer m).state = .idle ∨ (s.mixer m).state = .mixing) :
    s.clampFault m = s.goOut m := by
  rcases state with idle | mixing
  · simp only [State.clampFault, idle]
  · simp only [State.clampFault, mixing]

theorem clampFault_loading (loading : (s.mixer m).state = .loading) : s.clampFault m = (s.goOut m).examineTransfer := by
  simp only [State.clampFault, loading]

theorem clampFault_holding (holding : (s.mixer m).state = .holding) :
    s.clampFault m = ((s.leaveClaims m).goOut m).examineLidder.select := by
  simp only [State.clampFault, holding]

theorem clampFault_already (out : (s.mixer m).state = .out) : s.clampFault m = s := by
  simp only [State.clampFault, out]

theorem mixer_leaveClaims (s : State) (m n : MixerId) : (s.leaveClaims m).mixer n = s.mixer n := by cases n <;> rfl

/-- Settles O59: the transfer conditions, and each event by the state of the mixer. -/
theorem mixersTakeMixAndFault : Obligations.MixersTakeMixAndFault := by
  intro s m on
  have run := next_whenActive on
  refine ⟨fun t tin station stage mode unsent => ?_, fun stop => ?_, fun t tin stop => ?_,
    fun t loading tin => ?_, fun other => ?_, fun state timer fresh => ?_, fun stopped => ?_,
    ⟨fun state => ?_, fun state => ?_, fun state => ?_, fun state => ?_⟩,
    fun h j pre c post job classes code first => mixMs_eq job classes code first⟩
  · exact examineTransfer_sends tin ⟨station, stage, unsent, mode⟩
  · cases tin : s.tin with
    | none => exact examineTransfer_empty tin
    | some t =>
      refine examineTransfer_stays tin fun due => ?_
      rcases stop with none | station | mode
      · rw [tin] at none; cases none
      · exact station due.station
      · exact due.mode mode
  · refine examineTransfer_stays tin fun due => ?_
    rcases stop with stage | ⟨n, loading⟩
    · exact stage due.stage
    · exact due.unsent n loading
  · exact (run _).trans (by rw [loaded_takes loading tin, mixing, mixTimer_eq])
  · exact (run _).trans (by rw [loaded_ignored other])
  · exact (run _).trans (by rw [mixExpiry_holds state timer fresh])
  · exact (run _).trans (by rw [mixExpiry_stopped stopped])
  · exact (run _).trans (by rw [clampFault_out state]; rfl)
  · exact (run _).trans (by rw [clampFault_loading state]; rfl)
  · exact (run _).trans (by rw [clampFault_holding state, State.goOut, mixer_leaveClaims]; rfl)
  · exact (run _).trans (by rw [clampFault_already state])

/-! ### MIXER-RETURN -/

section
variable {p : Port} {tag : Byte} {body : Bytes}

theorem mixerReturnRefusal_popHold (s : State) (p : Port) (b : Bytes) :
    mixerReturnRefusal b (s.popHold p) = mixerReturnRefusal b s := by
  rw [mixerReturnRefusal, State.popHold, mixer_setPort]
  rfl

theorem bodyMixer_code (m : MixerId) : bodyMixer [codeMixer m] = m := by cases m <;> rfl

theorem firstRefusal_single (check : Option Nak) : firstRefusal [check] = check := by cases check <;> rfl

/-- A body that names a mixer is checked against the mixer's state (R134). -/
theorem mixerReturnRefusal_named (s : State) (m : MixerId) :
    mixerReturnRefusal [codeMixer m] s = refuseIf ((s.mixer m).state != .out) (nak .state) := by
  have named : (decide (u8 [codeMixer m] 0 ≠ 1) && decide (u8 [codeMixer m] 0 ≠ 2)) = false := by cases m <;> rfl
  rw [mixerReturnRefusal, bodyMixer_code, refuseIf_of_not named]
  exact firstRefusal_single _

theorem mixerReturn_refused (ht : s.Takes p .mixerReturn tag body) {r : Nak} (hr : mixerReturnRefusal body s = some r)
    {detail : Bytes} (hd : r.bytes = detail) :
    exec (.mixerReturn p tag body) s = .next (s.replied p .mixerReturn tag detail) :=
  taken_refused (effect := mixerReturnEffect body) ht rfl (mixerReturnRefusal_popHold s p body) hr hd

theorem mixerReturn_ok (ht : s.Takes p .mixerReturn tag [codeMixer m]) (out : (s.mixer m).state = .out) {t : State}
    {content : Bytes} (he : mixerReturnEffect [codeMixer m] (s.popHold p) = (t, content)) :
    exec (.mixerReturn p tag [codeMixer m]) s = .next (t.answered p .mixerReturn tag content) :=
  taken_ok (refusal := mixerReturnRefusal [codeMixer m]) ht rfl (mixerReturnRefusal_popHold s p _)
    ((mixerReturnRefusal_named s m).trans (refuseIf_of_not (by simp [out]) _)) he

theorem mixerReturnEffect_empty (tin : (s.mixer m).tin = none) : mixerReturnEffect [codeMixer m] s =
    ((s.setMixer m Mixer.idle).examineTransfer, [codeMixer m, 0]) := by
  simp only [mixerReturnEffect, bodyMixer_code, tin]
  rfl

theorem mixerReturnEffect_holding (tin : (s.mixer m).tin = some t) : mixerReturnEffect [codeMixer m] s =
    (s.setMixer m (mixing s t), [codeMixer m, 2]) := by
  simp only [mixerReturnEffect, bodyMixer_code, tin]
  rfl

end

/-- Settles O42: the checks of MIXER-RETURN in order, and its effect on an empty and on a holding mixer. -/
theorem mixerReturnRestoresAMixer : Obligations.MixerReturnRestoresAMixer := by
  refine ⟨fun s p tag body ht => ⟨fun length => ?_, fun length not1 not2 => ?_⟩,
    fun s p tag m ht => ⟨fun other => ?_, fun out tin => ?_, fun t out tin => ?_⟩⟩
  · exact mixerReturn_refused ht (r := nak .format) (by simp [mixerReturnRefusal, length]) rfl
  · exact mixerReturn_refused ht (r := nakField .format 1) (by simp [mixerReturnRefusal, length, not1, not2]) rfl
  · exact mixerReturn_refused ht (r := nak .state)
      ((mixerReturnRefusal_named s m).trans (refuseIf_of (by simp [other]) _)) rfl
  · exact mixerReturn_ok ht out (mixerReturnEffect_empty (s := s.popHold p) ((mixer_setPort s p _ m).symm ▸ tin))
  · have held : ((s.popHold p).mixer m).tin = some t := (mixer_setPort s p _ m).symm ▸ tin
    rw [mixerReturn_ok ht out (mixerReturnEffect_holding held), mixing, mixTimer_eq]
    rfl

end Sys2Proof.Mixers
end

section
/-! The lidder's take (R138, R139), the placing of its tin and the waiting for a lane (R140 to R144), the end of a tin
context (R66, R69, R75), and the statement O60. -/

namespace Sys2Proof.Lids

open Sys2Proof Sys2Proof.Machine Sys2Proof.Submit Sys2Proof.Stock Sys2Proof.JobRequests Sys2Proof.Schedule
  Sys2Proof.Mixers

variable {s : State} {t : TinCtx} {x : Lane} {j : Job} {h : Handle}

/-! ### The take -/

theorem destLane_eq (j : Job) (t : TinCtx) : destLane j t = if t.route = .normal then ownerLane j.owner else .lx := by
  unfold destLane
  cases t.route <;> rfl

/-- The marks of a label: W and N stand on no tin that reaches the lidder unjudged (R139). -/
theorem labelMarks_eq (j : Job) (t : TinCtx) : labelMarks j t =
    if t.route = .reject ∧ t.marks.w = false ∧ t.marks.n = false then
      { w := false, n := false, l := j.comps.any (·.lotBreak), s := j.comps.any (·.substep) }
    else t.marks :=
  if_congr (by simp [Marks.weighed]) rfl rfl

/-- The lidder takes nothing while it is at work, in HALTED, or with no claimant (R138). -/
theorem examineLidder_rests (stop : s.lidder.state ≠ .idle ∨ s.line.mode = .halted ∨ s.lidder.claims = []) :
    s.examineLidder = s := by
  refine examineLidder_stays fun src rest t j c => ?_
  rcases stop with busy | halted | none
  · exact busy c.idle
  · exact Bool.false_ne_true (c.running.symm.trans ((halted_iff s).2 halted))
  · exact List.cons_ne_nil src rest (c.claims.symm.trans none)

theorem sourceTin_mixer (s : State) (m : MixerId) : s.sourceTin (mixerSource m) = (s.mixer m).tin := by cases m <;> rfl

theorem releaseSource_mixer (s : State) (m : MixerId) :
    s.releaseSource (mixerSource m) = (s.setMixer m Mixer.idle).examineTransfer := by cases m <;> rfl

/-! ### The end of a tin context -/

section
variable (job : s.job? h = some j)
include job

theorem contextEnded_done (active : j.state = .active) (counted : j.counted = j.n) (delivered : j.delivered = j.n) :
    s.contextEnded h = (s.putJob h { j with state := .done }).notify j.owner (.jobState h .done .done) := by
  simp only [State.contextEnded, job]
  rw [if_pos (by simp [active, counted, delivered]), modJob_eq job]
  exact notifyJob_eq (job?_putJob s h _) .done

theorem contextEnded_cancelled (cancelling : j.state = .cancelling) (gone : s.tinCount h = 0) :
    s.contextEnded h =
      (s.putJob h { j with state := .cancelled }).notify j.owner (.jobState h .cancelled .cancelled) := by
  simp only [State.contextEnded, job]
  rw [if_neg (by simp [cancelling]), if_pos (by simp [cancelling, gone]), modJob_eq job]
  exact notifyJob_eq (job?_putJob s h _) .cancelled

/-- A job that is neither DONE nor CANCELLED by the end of a tin may become READY (R66). -/
theorem contextEnded_calms (unfinished : j.state = .active → j.counted ≠ j.n ∨ j.delivered ≠ j.n)
    (held : j.state = .cancelling → 0 < s.tinCount h) : s.contextEnded h = s.calmJob h := by
  simp only [State.contextEnded, job]
  rw [if_neg, if_neg]
  · simpa using fun cancelling => Nat.pos_iff_ne_zero.1 (held cancelling)
  · simpa [or_iff_not_imp_left] using unfinished

theorem calmJob_rests (rest : j.state = .active → 0 < s.tinCount h ∨ s.called h = true ∨ j.n ≤ j.counted) :
    s.calmJob h = s := by
  simp only [State.calmJob, job]
  refine if_neg fun calm => ?_
  simp only [Bool.and_eq_true, beq_iff_eq, Bool.not_eq_true', decide_eq_true_eq] at calm
  obtain ⟨⟨⟨active, uncalled⟩, gone⟩, left⟩ := calm
  rcases rest active with tins | called | counted
  · omega
  · rw [uncalled] at called; cases called
  · omega

theorem contextEnded_ready (active : j.state = .active) (left : j.counted < j.n) (gone : s.tinCount h = 0)
    (uncalled : s.called h = false) : s.contextEnded h = s.putJob h { j with state := .ready } := by
  rw [contextEnded_calms job (fun _ => .inl left.ne) (by simp [active]), calmJob_eq job uncalled,
    if_pos ⟨active, gone, left⟩]

end

/-! ### Placing the tin -/

/-- The lidder's tin stands on its lane, and the lidder is IDLE (R143). -/
def placed (s : State) (x : Lane) : State :=
  { s with
    lanes := s.lanes.setCount x (s.lanes.count x + 1)
    lidder := { s.lidder with state := .idle, tin := none, label := none, dest := none, cmdOut := false } }

/-- The tin that stands on its lane is told to its job and the owner if it is NORMAL (R143). -/
def handedOver (s : State) (t : TinCtx) (x : Lane) (j : Job) : State :=
  if t.route = .normal then
    (s.putJob t.handle { j with
      delivered := j.delivered + 1
      results := j.results.modify (t.index - 1) fun e : TinResult =>
        { e with outcome := .delivered, lane := some x } }).notify j.owner
      (.tinOut t.handle t.index x (((j.results[t.index - 1]?).bind fun e : TinResult => e.marks).getD Marks.none))
  else s

theorem deliver_eq (job : s.job? t.handle = some j) (normal : t.route = .normal) :
    s.deliver t x = handedOver s t x j := by
  simp only [State.deliver, job]
  rw [modJob_eq job, handedOver, if_pos normal]

/-- The whole work of placing a tin (R143). -/
theorem placeTin_eq (tin : s.lidder.tin = some t) (dest : s.lidder.dest = some x) (job : s.job? t.handle = some j) :
    s.placeTin = ((handedOver (placed s x) t x j).contextEnded t.handle).examinePark.examineLidder := by
  have held : (placed s x).job? t.handle = some j := job
  simp only [State.placeTin, tin, dest]
  cases route : t.route with
  | normal => rw [← deliver_eq held route]; rfl
  | reject => rw [handedOver, if_neg (by simp [route])]; rfl

/-! ### LIDDED and TIN-TAKEN -/

theorem laneRoom_iff (s : State) (x : Lane) : s.laneRoom x = true ↔ s.lanes.count x < laneCapacity x :=
  decide_eq_true_iff

theorem lidded_ignored (stop : s.lidder.state ≠ .lidding ∨ s.lidder.cmdOut = false) : s.lidded = s := by
  unfold State.lidded
  split
  · rfl
  · refine if_neg fun taken => ?_
    simp only [Bool.and_eq_true, beq_iff_eq] at taken
    rcases stop with other | absent
    · exact other taken.1
    · exact Bool.false_ne_true (absent.symm.trans taken.2)

/-- A LIDDED that is taken places the tin, or lets it wait for its lane (R140). -/
theorem lidded_taken (dest : s.lidder.dest = some x) (lidding : s.lidder.state = .lidding)
    (out : s.lidder.cmdOut = true) :
    s.lidded = if s.lanes.count x < laneCapacity x then s.placeTin.select else s.laneWait x := by
  simp only [State.lidded, dest]
  rw [if_pos (by simp [lidding, out])]
  exact if_congr (laneRoom_iff s x) rfl rfl

theorem lanePorts_eq (x : Lane) : lanePorts x =
    if x = Lane.la then [Port.a] else if x = Lane.lb then [.b] else if x = Lane.lc then [.c] else [.a, .b, .c] := by
  cases x <;> rfl

theorem laneWait_eq (tin : s.lidder.tin = some t) : s.laneWait x = State.notifyEach { s with
    lidder := { s.lidder with state := .laneWait, cmdOut := false, tin := some { t with stage := .laneWait } } }
    (lanePorts x) (.laneFull x) := by
  rw [State.laneWait, Lidder.wait, tin]
  rfl

theorem examineLane_places (dest : s.lidder.dest = some x) (waiting : s.lidder.state = .laneWait)
    (mode : s.line.mode ≠ .halted) (room : s.lanes.count x < laneCapacity x) : s.examineLane = s.placeTin := by
  simp only [State.examineLane, dest]
  exact if_pos (by simp [waiting, halted_false mode, (laneRoom_iff s x).2 room])

theorem examineLane_rests (stop : s.lidder.state ≠ .laneWait ∨ s.line.mode = .halted ∨
    ∀ x, s.lidder.dest = some x → laneCapacity x ≤ s.lanes.count x) : s.examineLane = s := by
  unfold State.examineLane
  split
  · next x dest =>
    refine if_neg fun places => ?_
    simp only [Bool.and_eq_true, beq_iff_eq, Bool.not_eq_true'] at places
    obtain ⟨⟨waiting, running⟩, room⟩ := places
    rcases stop with other | halted | full
    · exact other waiting
    · exact Bool.false_ne_true (running.symm.trans ((halted_iff s).2 halted))
    · exact absurd ((laneRoom_iff s x).1 room) (Nat.not_lt.2 (full x dest))
  · rfl

/-- Settles O60: the lidder's take, the placing of its tin, and what the end of the tin makes of its job. -/
theorem lidderTakesAndPlacesTins : Obligations.LidderTakesAndPlacesTins := by
  intro s on
  have run := next_whenActive on
  refine ⟨fun src rest t j idle mode claims tin job => ?_, examineLidder_rests, examineLane_rests,
    fun stop => (run _).trans (by rw [lidded_ignored stop]), fun t x j tin dest job => ?_, fun x => run _,
    fun h j job => ⟨contextEnded_done job, contextEnded_ready job, fun active unfinished rest => ?_,
      contextEnded_cancelled job, fun cancelling held => ?_, fun other => ?_⟩,
    fun m => ⟨sourceTin_mixer s m, releaseSource_mixer s m⟩, rfl, rfl, fun j t => ?_, rfl, rfl⟩
  · rw [examineLidder_takes ⟨idle, halted_false mode, claims, tin, job⟩, ← destLane_eq]
    rfl
  · intro _ _ _ b
    have places : s.placeTin = b := placeTin_eq tin dest job
    refine ⟨fun lidding out => ⟨fun room => (run _).trans ?_, fun full => (run _).trans ?_⟩,
      fun waiting mode room => (examineLane_places dest waiting mode room).trans places⟩
    · rw [lidded_taken dest lidding out, if_pos room, places]
    · rw [lidded_taken dest lidding out, if_neg (Nat.not_lt.2 full), laneWait_eq tin, lanePorts_eq]
  · rw [contextEnded_calms job (fun _ => unfinished) (by simp [active]), calmJob_rests job fun _ => rest]
  · rw [contextEnded_calms job (by simp [cancelling]) fun _ => held, calmJob_rests job (by simp [cancelling])]
  · simp only [List.mem_cons, List.not_mem_nil, or_false, not_or] at other
    rw [contextEnded_calms job (fun active => absurd active other.1) (fun c => absurd c other.2),
      calmJob_rests job fun active => absurd active other.1]
  · rw [buildLabel, labelMarks_eq]
    rfl

end Sys2Proof.Lids
end

section
/-! What each command is, said once: a request, an event of a part that runs, a movement of the guard switch, a start or a
loss of power, with what it does to the line controller and the lane counts (R142, R146, R153). -/

namespace Sys2Proof.LineModes

open Sys2Proof Sys2Proof.Machine

/-! ### Keeping the laws -/

/-- What happened between two states keeps the line controller (R146, R153) and the lane counts (R142) lawful. -/
structure KeepsLine (s t : State) : Prop where
  line : s.line.Ok → t.line.Ok
  lanes : s.LanesOk → t.LanesOk

theorem KeepsLine.refl (s : State) : KeepsLine s s := ⟨id, id⟩

theorem KeepsLine.trans {a b c : State} (h : KeepsLine a b) (k : KeepsLine b c) : KeepsLine a c :=
  ⟨k.line ∘ h.line, k.lanes ∘ h.lanes⟩

theorem KeepsLine.of_works {s t : State} (w : Works s t) : KeepsLine s t where
  line h := ⟨w.flag h.flag, by rw [w.settings]; exact h.settings⟩
  lanes h x := w.lanes x (h x)

theorem KeepsLine.of_eq {s t : State} (line : t.line = s.line) (lanes : t.lanes = s.lanes) : KeepsLine s t where
  line h := by rw [line]; exact h
  lanes h x := by rw [lanes]; exact h x

/-- Work of the blocks behind a change of neither. -/
theorem KeepsLine.then_works {s u t : State} (w : Works u t) (line : u.line = s.line) (lanes : u.lanes = s.lanes) :
    KeepsLine s t := .trans (.of_eq line lanes) (.of_works w)

/-! ### The effects of requests that are more than work of the blocks -/

section
variable (b : Bytes) (s : State)

theorem keepsLine_submit (p : Port) : KeepsLine s (submitEffect p b s).1 := by
  unfold submitEffect
  split
  · exact .refl s
  · dsimp only [State.admitJob]
    split
    · exact .then_works ((((works_joinQueue _ _).trans (works_notifyJob _ _ _)).trans (works_wake _)).trans
        (works_select _)) rfl rfl
    · exact .then_works ((((works_setWait _ _ _).trans (works_notifyWait _ _ _ _)).trans
        (works_notifyJob _ _ _)).trans (works_select _)) rfl rfl

theorem keepsLine_install : KeepsLine s (installEffect b s).1 := by
  unfold installEffect
  exact .then_works (works_examineLow _ _) rfl rfl

theorem keepsLine_calibrate : KeepsLine s (calibrateEffect b s).1 := by
  unfold calibrateEffect
  refine .trans ?_ (.of_works (works_selectAfter _ _))
  split
  · exact .then_works (works_walk _ _) rfl rfl
  · exact .of_eq rfl rfl

theorem keepsLine_refillEnd : KeepsLine s (refillEndEffect b s).1 := by
  unfold refillEndEffect
  exact .then_works ((works_walk _ _).trans (works_selectAfter _ _)) rfl rfl

theorem keepsLine_adjust : KeepsLine s (adjustEffect b s).1 := by
  unfold adjustEffect
  refine .trans ?_ (.of_works (works_selectAfter _ _))
  split
  · exact .then_works (works_examineLow _ _) rfl rfl
  · split
    · exact .then_works (works_walk _ _) rfl rfl
    · exact .of_eq rfl rfl

theorem keepsLine_clear (p : Port) : KeepsLine s (clearEffect p s).1 := by
  rw [JobRequests.clearEffect_rest]
  exact .of_eq rfl rfl

theorem clamp_clamp (r : Config.Range) (n : Nat) : r.clamp (r.clamp n) = r.clamp n := by
  unfold Config.Range.clamp
  omega

/-- Clamped settings are in their ranges (R153). -/
theorem settings_clamp_clamp (v : Settings) : v.clamp.clamp = v.clamp := by
  simp only [Settings.clamp, clamp_clamp]

/-- SET-LINE puts clamped settings in force and leaves mode and flag (R153). -/
theorem keepsLine_setLine : KeepsLine s (setLineEffect b s).1 := by
  have inForce {t : State} (line : t.line = { s.line with settings := (settingsBody b).clamp })
      (lanes : t.lanes = s.lanes) : KeepsLine s t :=
    ⟨fun h => by rw [line]; exact ⟨h.flag, settings_clamp_clamp _⟩, fun h x => by rw [lanes]; exact h x⟩
  unfold setLineEffect
  dsimp only
  split
  · refine .trans ?_ (.of_works (works_select _))
    exact inForce rfl rfl
  · exact inForce rfl rfl

end

/-! ### The start -/

theorem lanesOk_reset : State.reset.LanesOk := fun x => by cases x <;> exact Nat.zero_le _

theorem default_clamp : Settings.default.clamp = Settings.default := by decide

/-- The flag stands exactly in HALTED, and the settings read are in their ranges (R157, R158). -/
theorem lineOk_start (g : GuardState) (st : Store) (l : List Instr) : (State.start g st l).line.Ok := by
  refine ⟨by cases g <;> rfl, ?_⟩
  show (readSettings st.settings).1.clamp = (readSettings st.settings).1
  rw [(Start.readSettings_cases st.settings).1]
  split
  · split
    · next sound => exact sound.2
    · exact default_clamp
  · exact default_clamp

/-! ### Every command -/

/-- What command `i` is in state `s`, by its outcome. -/
inductive Acts (i : Instr) (s : State) : Host.Outcome State Fault Refusal → Prop
  | request (p : Port) (k : ReqKind) (tag : Byte) (body : Bytes) {refusal : State → Option Nak}
      {effect : State → State × Bytes} (keeps : ∀ u, KeepsLine u (effect u).1) :
      Acts i s (.next (s.take p k tag body refusal effect))
  | otherRow : Acts i s (.next s)
  | event {f : State → State} (keeps : KeepsLine s (f s)) : Acts i s (.next (s.whenActive f))
  | guard (g : GuardState) {f : State → State} (is : i = .guardOpened ∨ i = .guardClosed) (works : ∀ u, Works u (f u)) :
      Acts i s (.next (({ s with guardInput := g }).whenActive f))
  | start (is : i = .partStart) : Acts i s (.next (if s.active then s else State.start s.guardInput s.store s.pending))
  | powerLoss (writing : Option StoreKey) (is : i = .powerLoss writing) :
      Acts i s (.next (if s.power = .off then s
        else State.dark s.guardInput (s.store.breakCopy writing) s.pending))
  | illFormed (r : Refusal) (is : i.wf = false) : Acts i s (.refused r)

variable {i : Instr} {s : State}

theorem acts_works {p : Port} {k : ReqKind} {tag : Byte} {body : Bytes} {refusal : State → Option Nak}
    {effect : State → State × Bytes} (w : ∀ u, Works u (effect u).1) :
    Acts i s (.next (s.take p k tag body refusal effect)) := .request _ _ _ _ fun u => .of_works (w u)

theorem acts_plain {p : Port} {k : ReqKind} {tag : Byte} {body : Bytes} {refusal : State → Option Nak}
    {effect : State → State × Bytes} (line : ∀ u, (effect u).1.line = u.line)
    (lanes : ∀ u, (effect u).1.lanes = u.lanes) :
    Acts i s (.next (s.take p k tag body refusal effect)) := .request _ _ _ _ fun u => .of_eq (line u) (lanes u)

/-- A request row of a kind that two rows share takes the frames of its own operation alone (log entry 5). -/
theorem acts_row {c : Prop} [Decidable c] {t u : State} (yes : Acts i s (.next t)) (no : Acts i s (.next u)) :
    Acts i s (.next (if c then t else u)) := by
  split
  · exact yes
  · exact no

theorem acts_event {f : State → State} (w : Works s (f s)) : Acts i s (.next (s.whenActive f)) := .event (.of_works w)

theorem acts_port (p : Port) (v : State → PortState) : Acts i s (.next (s.whenActive fun u => u.setPort p (v u))) :=
  .event (.of_eq rfl rfl)

/-- An event with operands that its line or port can carry, or a refusal. -/
theorem acts_carried {c : Prop} [Decidable c] {t : State} (r : Refusal) (is : ¬ c → i.wf = false)
    (acts : Acts i s (.next t)) : Acts i s (if c then .next t else .refused r) := by
  split
  · exact acts
  · next bad => exact .illFormed r (is bad)

theorem acts_exec (i : Instr) (s : State) : Acts i s (exec i s) := by
  cases i with
  | submit p tag body => exact .request _ _ _ _ fun u => keepsLine_submit body u p
  | cancel p tag body => exact acts_works (works_cancelEffect body)
  | resume p tag body => exact acts_works (works_resumeEffect body)
  | retire p tag body => exact acts_plain (fun _ => rfl) fun _ => rfl
  | readJob p tag body => exact acts_works fun u => .refl u
  | readTin p tag body => exact acts_works fun u => .refl u
  | install p tag body => exact .request _ _ _ _ (keepsLine_install body)
  | remove p tag body => exact acts_plain (fun _ => rfl) fun _ => rfl
  | calibrate p tag body => exact .request _ _ _ _ (keepsLine_calibrate body)
  | refillBegin p tag body => exact acts_plain (fun _ => rfl) fun _ => rfl
  | refillEnd p tag body => exact .request _ _ _ _ (keepsLine_refillEnd body)
  | adjust p tag body => exact .request _ _ _ _ (keepsLine_adjust body)
  | readCanister p tag body => exact acts_works fun u => .refl u
  | setTinClassSet p tag body => exact acts_row .otherRow (acts_plain (fun _ => rfl) fun _ => rfl)
  | setTinClassDelete p tag body => exact acts_row (acts_plain (fun _ => rfl) fun _ => rfl) .otherRow
  | setLine p tag body => exact .request _ _ _ _ (keepsLine_setLine body)
  | lineModePark p tag body => exact acts_row .otherRow (acts_works works_parkEffect)
  | lineModeWake p tag body => exact acts_row (acts_works works_wakeEffect) .otherRow
  | resumeLine p tag body => exact acts_works works_resumeLineEffect
  | mixerReturn p tag body => exact acts_works (works_mixerReturnEffect body)
  | find p tag body => exact acts_works fun u => .refl u
  | status p tag body => exact acts_works fun u => .refl u
  | fetchNotice p tag body => exact acts_plain (fun _ => rfl) fun _ => rfl
  | clearPort p tag body => exact .request _ _ _ _ fun u => keepsLine_clear u p
  | frameReceived p kind tag body crc => exact acts_carried _ (Bool.not_eq_true _).mp (acts_port p _)
  | frameGapTimeout p => exact acts_port p _
  | answerSent p =>
    refine .event ?_
    unfold State.answerSent
    split
    · exact .refl s
    · exact .of_eq rfl rfl
  | burstDone p n => exact acts_event (works_burstDone s p n)
  | chargeDone p => exact acts_event (works_chargeDone s p)
  | recircDone p => exact acts_event (works_recircDone s p)
  | haltReport p n => exact acts_event (works_haltReport s p n)
  | reading mass stable overload => exact acts_carried _ decide_eq_false (acts_event (works_reading s _ _ _))
  | scan cls base => exact acts_carried _ (Bool.not_eq_true _).mp (acts_event (works_scan s _ _))
  | loaded m => exact acts_event (works_loaded s m)
  | clampFault m => exact acts_event (works_clampFault s m)
  | lidded => exact acts_event (works_lidded s)
  | tinTaken x => exact acts_event (works_tinTaken s x)
  | guardOpened => exact .guard .opened (.inl rfl) works_guardOpened
  | guardClosed => exact .guard .closed (.inr rfl) works_guardClosed
  | resetAssert writing => exact .event (.of_eq rfl rfl)
  | partStart => exact .start rfl
  | settleTimerExpiry p => exact acts_event (works_settleExpiry s p)
  | keepStirTimerExpiry p => exact acts_event (works_keepStirExpiry s p)
  | callTimerExpiry => exact acts_event (works_callExpiry s)
  | dwellTimerExpiry d => exact acts_event (works_dwellExpiry s d)
  | dripTimerExpiry => exact acts_event (works_dripExpiry s)
  | scaleSettleTimeout => exact acts_event (works_scaleTimeout s)
  | mixTimerExpiry m => exact acts_event (works_mixExpiry s m)
  | powerLoss writing => exact .powerLoss writing rfl
  | frameStartByte p => exact acts_port p _
  | lengthByteAbove240 p len => exact acts_carried _ decide_eq_false (acts_port p _)

end Sys2Proof.LineModes
end

section
/-! The laws of the line controller and the lane counts over every step, and the part that does not run (R156): the
statements O6 and O14. -/

namespace Sys2Proof.LineModes

open Sys2Proof Sys2Proof.Machine

variable {i : Instr} {s : State}

/-! ### Every step keeps the laws -/

theorem keepsLine_whenActive {f : State → State} (keeps : KeepsLine s (f s)) : KeepsLine s (s.whenActive f) := by
  unfold State.whenActive
  split
  · exact keeps
  · exact .refl s

theorem keepsLine_take {p : Port} {k : ReqKind} {tag : Byte} {body : Bytes} {refusal : State → Option Nak}
    {effect : State → State × Bytes} (keeps : ∀ u, KeepsLine u (effect u).1) :
    KeepsLine s (s.take p k tag body refusal effect) := by
  have popped : KeepsLine s (s.popHold p) := .of_eq rfl rfl
  rcases take_cases p k tag body refusal effect s with e | ⟨-, _, e⟩ | ⟨-, -, e⟩
  · rw [e]; exact .refl s
  · rw [e]; exact .of_eq rfl rfl
  · rw [e]; exact .trans (popped.trans (keeps _)) (.of_eq rfl rfl)

theorem keepsLine_exec {t : State} (h : exec i s = .next t) : KeepsLine s t := by
  have acts : Acts i s (.next t) := h ▸ acts_exec i s
  cases acts with
  | request p k tag body keeps => exact keepsLine_take keeps
  | otherRow => exact .refl s
  | event keeps => exact keepsLine_whenActive keeps
  | guard g is works =>
    exact .trans (b := { s with guardInput := g }) (.of_eq rfl rfl) (keepsLine_whenActive (.of_works (works _)))
  | start is =>
    split
    · exact .refl s
    · exact ⟨fun _ => lineOk_start _ _ _, fun _ => lanesOk_reset⟩
  | powerLoss writing is =>
    split
    · exact .refl s
    · exact ⟨fun _ => ⟨rfl, default_clamp⟩, fun _ => lanesOk_reset⟩

/-- Settles O14: every command keeps the laws on the state with the queue's rest, and a millisecond touches neither the
line controller nor a lane count. -/
theorem stepsKeepLineAndLanesLawful : Obligations.StepsKeepLineAndLanesLawful := by
  intro s t h
  have keeps : KeepsLine s t := by
    unfold step at h
    split at h
    · cases h
      exact keepsLine_whenActive (.of_eq rfl rfl)
    · next c rest _ => exact .trans (b := { s with pending := rest }) (.of_eq rfl rfl) (keepsLine_exec h)
  exact ⟨keeps.line, keeps.lanes⟩

/-! ### A part that does not run -/

theorem whenActive_off (off : s.power ≠ .on) (f : State → State) : s.whenActive f = s :=
  if_neg (by simpa [State.active] using off)

/-- Settles O6: a request is not taken, an event is not acted on, and of the guard switch the input alone follows. -/
theorem inactivePartTakesNothing : Obligations.InactivePartTakesNothing := by
  intro i s off fits
  refine ⟨fun noStart noLoss noOpening noClosing => ?_,
    congrArg _ (whenActive_off (s := { s with guardInput := .opened }) off _),
    congrArg _ (whenActive_off (s := { s with guardInput := .closed }) off _)⟩
  have acts := acts_exec i s
  generalize exec i s = outcome at acts ⊢
  cases acts with
  | request p k tag body keeps => rw [take_not fun takes => off takes.1]
  | otherRow => rfl
  | event keeps => rw [whenActive_off off]
  | guard g is works => exact (is.elim noOpening noClosing).elim
  | start is => exact absurd is noStart
  | powerLoss writing is => exact absurd is (noLoss writing)
  | illFormed r is => exact absurd fits (by rw [is]; decide)

end Sys2Proof.LineModes
end

section
/-! RESET and loss of power (R155, R156), SET-LINE (R85, R153), and the statements O5 and O39. -/

namespace Sys2Proof.LineModes

open Sys2Proof Sys2Proof.Machine Sys2Proof.Submit Sys2Proof.Requests Sys2Proof.Timers Sys2Proof.Mixers

variable {s : State}

/-! ### The copy being written -/

/-- Of the canister copies the one being written alone is left incomplete (R155). -/
theorem breakCopy_canister (st : Store) (p q : Pos) : (st.breakCopy (some (.canister p))).canisters[q] =
    if p = q then st.canisters[q].map Stored.broken else st.canisters[q] := by
  simp only [Store.breakCopy, Fin.getElem_fin, Vector.getElem_set, ← Fin.ext_iff]
  split
  · next same => rw [same]
  · rfl

/-- Of the class copies those that bear the code being written are left incomplete (R155). -/
theorem breakCopy_tinClass (st : Store) (code : Text) : st.breakCopy (some (.tinClass code)) =
    { st with classes := st.classes.map fun x => if x.data.code = code then { x with intact := false } else x } := by
  simp only [Store.breakCopy, beq_iff_eq, Stored.broken]

/-- Settles O5: what RESET and loss of power make of the state, and which copies each key breaks. -/
theorem resetAndPowerLossKeepTheStore : Obligations.ResetAndPowerLossKeepTheStore := by
  intro s w
  refine ⟨fun off => congrArg _ (whenActive_off off _), fun on => ⟨s.assertReset w, congrArg _ (whenActive_on on _), rfl,
    fun p => ?_, fun p => ?_, rfl⟩, fun off => congrArg _ (if_pos off), fun on => congrArg _ (if_neg on), rfl,
    breakCopy_canister s.store, fun p => ⟨rfl, rfl⟩, breakCopy_tinClass s.store, rfl⟩
  · exact mapVec_getFin PortState.clear s.ports (portIdx p)
  · exact mapVec_getFin (fun c : Canister => { c with stirrer := false }) s.canisters p

/-! ### SET-LINE -/

section
variable {tag : Byte} {body : Bytes}

/-- A SET-LINE body laid out as R178 says is read as its values. -/
theorem settingsBody_read {v : Settings} (call : v.callTimeout < 65536) (quota : v.quota < 256)
    (settle : v.scaleSettle < 65536) (floor : v.weighFloor < 65536) (absTol : v.absTol < 65536) (relTol : v.relTol < 256) :
    settingsBody (encSettings v) = v := by
  have parts : encSettings v = be 2 v.callTimeout ++ ([byte v.quota] ++ (be 2 v.scaleSettle ++ (be 2 v.weighFloor ++
      (be 2 v.absTol ++ byte v.relTol :: [])))) := by simp [encSettings]
  rw [parts, settingsBody]
  simp (disch := simp [be_length]) only [uN_append_skip, u8_append_skip, be_length, List.length_singleton]
  rw [uN_here 2 call, uN_here 2 settle, uN_here 2 floor, uN_here 2 absTol, u8_here relTol]
  exact congrArg (fun n => { v with quota := n }) (u8_here quota _)

theorem encSettings_length (v : Settings) : (encSettings v).length = 10 := by simp [encSettings, be_length]

theorem settings_clamp_eq (v : Settings) : v.clamp =
    { callTimeout := max 10 (min v.callTimeout 600), quota := max 1 (min v.quota 20)
      scaleSettle := max 1000 (min v.scaleSettle 10000), weighFloor := min v.weighFloor 10000
      absTol := min v.absTol 5000, relTol := min v.relTol 100 } := by
  simp [Settings.clamp, Config.Range.clamp, Config.callTimeoutRange, Config.quotaRange, Config.scaleSettleRange,
    Config.weighFloorRange, Config.absTolRange, Config.relTolRange]

theorem setLine_refused (ht : s.Takes .w .setLine tag body) (length : body.length ≠ 10) :
    exec (.setLine .w tag body) s = .next (s.replied .w .setLine tag [0x02, 0, 0]) := by
  refine taken_refused (refusal := setLineRefusal body) (effect := setLineEffect body) (r := nak .format) ht rfl rfl ?_
    rfl
  exact (firstRefusal_single _).trans (refuseIf_of (decide_eq_true length) _)

theorem setLine_ok (ht : s.Takes .w .setLine tag body) (length : body.length = 10) : exec (.setLine .w tag body) s = .next
    ((setLineEffect body (s.popHold .w)).1.answered .w .setLine tag (setLineEffect body (s.popHold .w)).2) := by
  refine taken_ok (refusal := setLineRefusal body) (effect := setLineEffect body) ht rfl rfl ?_ rfl
  exact (firstRefusal_single _).trans (refuseIf_of_not (decide_eq_false (not_not.2 length)) _)

end

/-- Settles O39: the body is read as its six values, and they are clamped. -/
theorem setLineClampsTheSettings : Obligations.SetLineClampsTheSettings := by
  refine ⟨fun s tag body ht length => setLine_refused ht length,
    fun s tag call quota settle floor absTol relTol hcall hquota hsettle hfloor habs hrel => ?_⟩
  intro body ht v t
  let given : Settings := ⟨call, quota, settle, floor, absTol, relTol⟩
  have read : settingsBody body = given := settingsBody_read (v := given) hcall hquota hsettle hfloor habs hrel
  have clamped : (settingsBody body).clamp = v := read ▸ settings_clamp_eq given
  rw [setLine_ok ht (encSettings_length given), setLineEffect, clamped]
  rfl

end Sys2Proof.LineModes
end

section
/-! Changes of line mode (R146 to R149): the notices of a change, the park condition, LINE-MODE, and the statement O40. -/

namespace Sys2Proof.LineModes

open Sys2Proof Sys2Proof.Machine Sys2Proof.Submit Sys2Proof.Stock Sys2Proof.Requests Sys2Proof.Schedule

variable {s : State}

/-! ### Notices touch the ports alone -/

theorem notifyEach_rest (l : List Port) (n : Notice) (s : State) :
    s.notifyEach l n = { s with ports := (s.notifyEach l n).ports } := by
  unfold State.notifyEach
  induction l generalizing s with
  | nil => rfl
  | cons p l ih => exact ih _

theorem notifyAll_rest (s : State) (n : Notice) : s.notifyAll n = { s with ports := (s.notifyAll n).ports } :=
  notifyEach_rest _ n s

theorem setMode_mode (s : State) (m : LineMode) : (s.setMode m).line.mode = m :=
  congrArg (fun u : State => u.line.mode) (notifyAll_rest _ _)

/-! ### The park condition -/

/-- No tin is anywhere on the line (R148). -/
theorem tins_nil_iff (s : State) :
    s.tins = [] ↔ s.tin = none ∧ s.m1.tin = none ∧ s.m2.tin = none ∧ s.lidder.tin = none := by
  simp [State.tins]

/-- The line has nothing left to do (R148). -/
def Idle (s : State) : Prop :=
  s.call = none ∧ s.tins = [] ∧ ∀ h ∈ s.queue, ∀ j, s.job? h = some j → j.state = .suspended

theorem parkCondition_iff (s : State) : s.parkCondition = true ↔ Idle s := by
  simp only [State.parkCondition, Idle, Bool.and_eq_true, List.all_eq_true, Option.isNone_iff_eq_none,
    List.isEmpty_iff, and_assoc]
  refine and_congr_right fun _ => and_congr_right fun _ => forall₂_congr fun h _ => ?_
  cases s.job? h <;> simp

theorem examinePark_parks (mode : s.line.mode = .parking) (idle : Idle s) : s.examinePark = s.setMode .parked :=
  if_pos (by simp [mode, (parkCondition_iff s).2 idle])

theorem examinePark_stays (h : s.line.mode ≠ .parking ∨ ¬ Idle s) : s.examinePark = s := by
  refine if_neg fun parks => ?_
  simp only [Bool.and_eq_true, beq_iff_eq, parkCondition_iff] at parks
  exact h.elim (· parks.1) (· parks.2)

theorem park_idle (mode : s.line.mode = .run) (idle : Idle s) : s.park = s.setMode .parked := by
  rw [State.park, if_pos mode, if_pos ((parkCondition_iff s).2 idle)]

theorem park_busy (mode : s.line.mode = .run) (busy : ¬ Idle s) : s.park = s.setMode .parking := by
  rw [State.park, if_pos mode, if_neg (mt (parkCondition_iff s).1 busy)]

theorem park_stays (mode : s.line.mode = .parking ∨ s.line.mode = .parked) : s.park = s :=
  if_neg (by rcases mode with mode | mode <;> simp [mode])

/-! ### LINE-MODE -/

section
variable {p : Port} {tag : Byte} {body : Bytes}

theorem park_refused (ht : s.Takes p .lineMode tag body) (row : body.head? ≠ some 1) {r : Nak}
    (hr : lineModeRefusal body s = some r) {detail : Bytes} (hd : r.bytes = detail) :
    exec (.lineModePark p tag body) s = .next (s.replied p .lineMode tag detail) := by
  show execLineModePark p tag body s = _
  rw [execLineModePark, if_neg (by simpa [isWake] using row)]
  exact taken_refused (refusal := lineModeRefusal body) ht rfl rfl hr hd

theorem wake_refused (ht : s.Takes p .lineMode tag body) (row : body.head? = some 1) {r : Nak}
    (hr : lineModeRefusal body s = some r) {detail : Bytes} (hd : r.bytes = detail) :
    exec (.lineModeWake p tag body) s = .next (s.replied p .lineMode tag detail) := by
  show execLineModeWake p tag body s = _
  rw [execLineModeWake, if_pos (by simpa [isWake] using row)]
  exact taken_refused (refusal := lineModeRefusal body) ht rfl rfl hr hd

theorem lineModeRefusal_length (length : body.length ≠ 1) : lineModeRefusal body s = some (nak .format) := by
  rw [lineModeRefusal, refuseIf_of (decide_eq_true length), firstRefusal_some]

/-- A body that names PARK or WAKE is refused in HALTED alone (R147). -/
theorem lineModeRefusal_named (length : body.length = 1) (named : u8 body 0 ≤ 1) :
    lineModeRefusal body s = refuseIf s.halted (nak .state) := by
  rw [lineModeRefusal, refuseIf_of_not (decide_eq_false (not_not.2 length)),
    refuseIf_of_not (decide_eq_false (Nat.not_lt.2 named)), firstRefusal_none, firstRefusal_none,
    Mixers.firstRefusal_single]

theorem lineModeRefusal_halted (length : body.length = 1) (named : u8 body 0 ≤ 1) (mode : s.line.mode = .halted) :
    lineModeRefusal body s = some (nak .state) := by
  rw [lineModeRefusal_named length named, refuseIf_of ((halted_iff s).2 mode)]

theorem lineModeRefusal_pass (length : body.length = 1) (named : u8 body 0 ≤ 1) (mode : s.line.mode ≠ .halted) :
    lineModeRefusal body s = none := by
  rw [lineModeRefusal_named length named, refuseIf_of_not (halted_false mode)]

/-- PARK ends with a selection, and its answer carries the mode before it (R147). -/
theorem park_ok (ht : s.Takes p .lineMode tag [0]) (mode : s.line.mode ≠ .halted) {u : State}
    (park : (s.popHold p).park = u) :
    exec (.lineModePark p tag [0]) s = .next (u.select.answered p .lineMode tag [codeLineMode u.line.mode]) :=
  taken_ok (refusal := lineModeRefusal [0]) (effect := parkEffect) ht rfl rfl
    (lineModeRefusal_pass rfl (Nat.zero_le 1) mode) (by rw [parkEffect, park])

/-- WAKE ends with a selection, and its answer carries the mode before it (R147). -/
theorem wake_ok (ht : s.Takes p .lineMode tag [1]) (mode : s.line.mode ≠ .halted) {u : State}
    (wake : (s.popHold p).wake = u) :
    exec (.lineModeWake p tag [1]) s = .next (u.select.answered p .lineMode tag [codeLineMode u.line.mode]) :=
  taken_ok (refusal := lineModeRefusal [1]) (effect := wakeEffect) ht rfl rfl
    (lineModeRefusal_pass rfl (Nat.le_refl 1) mode) (by rw [wakeEffect, wake])

/-- PARK in RUN changes the mode, which the answer carries (R147). -/
theorem park_changes (ht : s.Takes p .lineMode tag [0]) (mode : s.line.mode = .run) {m : LineMode}
    (park : (s.popHold p).park = (s.popHold p).setMode m) : exec (.lineModePark p tag [0]) s = .next
      (((s.popHold p).setMode m).select.answered p .lineMode tag [codeLineMode m]) := by
  rw [park_ok ht (by simp [mode]) park, setMode_mode]

end

/-- Settles O40: the park condition as the statement says it, then the rows of R147 mode by mode. -/
theorem parkAndWakeChangeTheMode : Obligations.ParkAndWakeChangeTheMode := by
  intro s p tag
  refine ⟨tins_nil_iff s, examinePark_parks, examinePark_stays,
    fun body ht => ⟨fun length => ⟨fun row => ?_, fun row => ?_⟩, fun length unnamed => ?_⟩,
    fun ht => ⟨fun run idle => ?_, fun run busy => ?_, fun asleep => ?_, fun halted => ?_⟩,
    fun ht => ⟨fun asleep => ?_, fun run => ?_, fun halted => ?_⟩⟩
  · exact park_refused ht row (lineModeRefusal_length length) rfl
  · exact wake_refused ht row (lineModeRefusal_length length) rfl
  · refine park_refused ht (r := nakField .format 1) (fun row => ?_) ?_ rfl
    · rw [ClassTable.u8_of_head row] at unnamed
      exact absurd unnamed (by decide)
    · rw [lineModeRefusal, refuseIf_of_not (decide_eq_false (not_not.2 length)), firstRefusal_none,
        refuseIf_of (decide_eq_true unnamed), firstRefusal_some]
  · exact park_changes ht run (park_idle run idle)
  · exact park_changes ht run (park_busy run busy)
  · exact park_ok ht (by rcases asleep with mode | mode <;> simp [mode]) (park_stays asleep)
  · exact park_refused ht (by decide) (lineModeRefusal_halted rfl (Nat.zero_le 1) halted) rfl
  · rw [wake_ok ht (by rcases asleep with mode | mode <;> simp [mode]) (wake_parked asleep)]
    exact congrArg (fun m => Host.Outcome.next (State.answered _ p .lineMode tag [codeLineMode m])) (setMode_mode _ .run)
  · rw [wake_ok ht (by simp [run]) (wake_stays (.inl run))]
    exact congrArg (fun m => Host.Outcome.next (State.answered _ p .lineMode tag [codeLineMode m])) run
  · exact wake_refused ht rfl (lineModeRefusal_halted rfl (Nat.le_refl 1) halted) rfl

end Sys2Proof.LineModes
end

section
/-! RESUME-LINE (R152): what each block does when the line leaves HALTED, and the statement O41. -/

namespace Sys2Proof.LineModes

open Sys2Proof Sys2Proof.Machine Sys2Proof.Submit Sys2Proof.Requests Sys2Proof.Schedule

variable {s : State}

/-! ### Demands -/

/-- Between the two states nothing changed that the weigh unit and the mixers read or write as the line runs again. -/
structure LeavesFloor (s t : State) : Prop where
  slots : t.slots = s.slots
  classes : t.classes = s.classes
  m1 : t.m1 = s.m1
  m2 : t.m2 = s.m2
  station : t.station = s.station
  settings : t.line.settings = s.line.settings
  capture : t.capture = s.capture
  scaleTimer : t.scaleTimer = s.scaleTimer

theorem LeavesFloor.trans {a b c : State} (h : LeavesFloor a b) (k : LeavesFloor b c) : LeavesFloor a c :=
  ⟨k.slots.trans h.slots, k.classes.trans h.classes, k.m1.trans h.m1, k.m2.trans h.m2, k.station.trans h.station,
    k.settings.trans h.settings, k.capture.trans h.capture, k.scaleTimer.trans h.scaleTimer⟩

theorem examineRecirc_leaves (s : State) (p : Pos) : LeavesFloor s (s.examineRecirc p) := by
  unfold State.examineRecirc
  dsimp only
  split <;> exact ⟨rfl, rfl, rfl, rfl, rfl, rfl, rfl, rfl⟩

theorem foldl_examineRecirc_leaves (l : List Pos) (s : State) : LeavesFloor s (l.foldl State.examineRecirc s) := by
  induction l generalizing s with
  | nil => exact ⟨rfl, rfl, rfl, rfl, rfl, rfl, rfl, rfl⟩
  | cons p l ih => exact (examineRecirc_leaves s p).trans (ih _)

theorem setMode_leaves (s : State) (m : LineMode) : LeavesFloor s (s.setMode m) := by
  rw [State.setMode, notifyAll_rest]
  exact ⟨rfl, rfl, rfl, rfl, rfl, rfl, rfl, rfl⟩

/-! ### The weigh unit and the mixers -/

theorem retare_eq (s : State) : s.retare = { s with
    capture := if s.station = .taring then .tare else s.capture
    scaleTimer := if s.station = .taring then some s.line.settings.scaleSettle else s.scaleTimer } := by
  unfold State.retare
  split <;> rfl

/-- A mixer once the line runs again: MIXING, its mix timer starts from full (R135). -/
def fromFull (s : State) (m : Mixer) : Mixer :=
  match m.state, m.tin with
  | .mixing, some t => { m with timer := some (s.mixMs t.handle) }
  | _, _ => m

theorem fromFull_mixing {m : Mixer} {t : TinCtx} (state : m.state = .mixing) (tin : m.tin = some t) :
    fromFull s m = { m with timer := some (s.mixMs t.handle) } := by
  rw [fromFull, state, tin]

theorem fromFull_rests {m : Mixer} (rests : ∀ t, m.state = .mixing → m.tin = some t → False) : fromFull s m = m := by
  unfold fromFull
  split
  · next t state tin => exact (rests t state tin).elim
  · rfl

theorem remix_eq (s : State) (m : MixerId) : s.remix m = s.setMixer m (fromFull s (s.mixer m)) := by
  unfold State.remix
  split
  · next t state tin => rw [fromFull_mixing state tin]
  · next rests =>
    rw [fromFull_rests rests]
    cases m <;> rfl

theorem fromFull_congr {t : State} (slots : t.slots = s.slots) (classes : t.classes = s.classes) (m : Mixer) :
    fromFull t m = fromFull s m := by
  have time (h : Handle) : t.mixMs h = s.mixMs h := by
    have job : t.job? h = s.job? h := by rw [State.job?, State.job?, slot_congr slots]
    rw [State.mixMs, State.mixMs, job, classes]
  simp only [fromFull, time]

/-- The weigh unit and both mixers begin again. -/
theorem restart_eq (s : State) : (s.retare.remix .m1).remix .m2 = { s with
    m1 := fromFull s s.m1, m2 := fromFull s s.m2
    capture := if s.station = .taring then .tare else s.capture
    scaleTimer := if s.station = .taring then some s.line.settings.scaleSettle else s.scaleTimer } := by
  rw [remix_eq, remix_eq, retare_eq]
  rfl

/-! ### The lidder -/

theorem relid_reissues {l : Label} (lidding : s.lidder.state = .lidding) (label : s.lidder.label = some l)
    (idle : s.lidder.cmdOut = false) : s.relid = { s with
      lidder := { s.lidder with cmdOut := true }, sent := s.sent ++ [Sent.lidStart l] } := by
  unfold State.relid
  rw [lidding]
  dsimp only
  rw [label, idle]
  rfl

theorem relid_rests (lidding : s.lidder.state = .lidding) (rest : s.lidder.label = none ∨ s.lidder.cmdOut = true) :
    s.relid = s := by
  unfold State.relid
  rw [lidding]
  dsimp only
  split
  · next l label => exact if_pos (rest.resolve_left (by simp [label]))
  · rfl

theorem relid_laneWait (waiting : s.lidder.state = .laneWait) : s.relid = s.examineLane := by
  rw [State.relid, waiting]

theorem relid_idle (idle : s.lidder.state = .idle) : s.relid = s.examineLidder := by
  rw [State.relid, idle]

/-! ### The blocks in their order -/

/-- The line in RUN again, with every demand examined (R25, R29). -/
def woken (s : State) : State := allPos.foldl State.examineRecirc (s.setMode .run)

theorem woken_leaves (s : State) : LeavesFloor s (woken s) :=
  (setMode_leaves s .run).trans (foldl_examineRecirc_leaves allPos (s.setMode .run))

theorem leaveHalted_eq (s : State) : s.leaveHalted = (State.examineTransfer { woken s with
    m1 := fromFull s s.m1, m2 := fromFull s s.m2
    capture := if s.station = .taring then .tare else s.capture
    scaleTimer := if s.station = .taring then some s.line.settings.scaleSettle else s.scaleTimer }).relid.select := by
  obtain ⟨slots, classes, m1, m2, station, settings, capture, scaleTimer⟩ := woken_leaves s
  show (((woken s).retare.remix .m1).remix .m2).examineTransfer.relid.select = _
  simp only [restart_eq, fromFull_congr slots classes, m1, m2, station, settings, capture, scaleTimer]

/-! ### RESUME-LINE -/

section
variable {p : Port} {tag : Byte} {body : Bytes}

theorem resumeLine_refused (ht : s.Takes p .resumeLine tag body) {r : Nak} (hr : resumeLineRefusal body s = some r)
    {detail : Bytes} (hd : r.bytes = detail) :
    exec (.resumeLine p tag body) s = .next (s.replied p .resumeLine tag detail) :=
  taken_refused (effect := resumeLineEffect) ht rfl rfl hr hd

theorem resumeLineRefusal_length (long : body ≠ []) : resumeLineRefusal body s = some (nak .format) := by
  rw [resumeLineRefusal, refuseIf_of (by simpa using long), firstRefusal_some]

theorem resumeLineRefusal_empty (s : State) :
    resumeLineRefusal [] s = refuseIf (s.halted && s.line.guard != some .closed) (nak .state) :=
  Mixers.firstRefusal_single _

theorem resumeLine_ok (ht : s.Takes p .resumeLine tag []) (hr : resumeLineRefusal [] s = none) {t : State}
    {content : Bytes} (he : resumeLineEffect (s.popHold p) = (t, content)) :
    exec (.resumeLine p tag []) s = .next (t.answered p .resumeLine tag content) :=
  taken_ok (refusal := resumeLineRefusal []) ht rfl rfl hr he

end

/-- Settles O41: the checks of RESUME-LINE, and the blocks in the order of the table after R152. -/
theorem resumeLineLeavesHalted : Obligations.ResumeLineLeavesHalted := by
  refine ⟨fun s p tag body ht long => resumeLine_refused ht (resumeLineRefusal_length long) rfl,
    fun s => ⟨fun lidding => ⟨fun l label idle => relid_reissues lidding label idle, relid_rests lidding⟩,
      relid_laneWait, relid_idle⟩,
    fun s p tag ht => ⟨fun running => ?_, fun mode guard => ?_, fun mode guard => ?_⟩⟩
  · have awake : s.halted = false := halted_false running
    rw [resumeLine_ok ht ((resumeLineRefusal_empty s).trans (refuseIf_of_not (by simp [awake]) _))
      (if_neg (by simp [State.popHold, awake]))]
    simp [State.answered, State.replied, State.popHold]
  · exact resumeLine_refused ht ((resumeLineRefusal_empty s).trans
      (refuseIf_of (by simp [(halted_iff s).2 mode, guard]) _)) rfl
  · intro full a b
    have halted : s.halted = true := (halted_iff s).2 mode
    exact resumeLine_ok ht ((resumeLineRefusal_empty s).trans (refuseIf_of_not (by simp [guard]) _))
      ((if_pos halted).trans (by rw [leaveHalted_eq]; rfl))

end Sys2Proof.LineModes
end

section
/-! The guard switch (R95, R114, R115, R121, R123, R135, R141, R150, R151): what its opening makes of each block and of the
station tin, and the statement O45. -/

namespace Sys2Proof.LineModes

open Sys2Proof Sys2Proof.Machine Sys2Proof.Bursts Sys2Proof.Schedule Sys2Proof.Timers

variable {s : State} {t : TinCtx}

/-! ### The blocks -/

theorem undecided_iff (s : State) (t : TinCtx) : s.undecided t = true ↔ t.route = .normal ∧
    s.station ∈ [StationState.taring, .dispensing, .drip, .weighing] := by
  simp [State.undecided, or_assoc]

/-- A waiting or dwelling channel becomes FREE (R114). -/
theorem chanAtGuard_eq (c : Channel) :
    c.atGuard = if c.state ∈ [ChanState.waitRecirc, .waitCharge, .dwell] then Channel.free else c := by
  unfold Channel.atGuard
  cases c.state <;> rfl

theorem chanAtGuardStop_eq (c : Channel) : c.atGuardStop = if c.state = .burst then c else Channel.free :=
  if_congr beq_iff_eq rfl rfl

theorem mixerAtGuard_eq (m : Mixer) : m.atGuard = if m.state = .mixing then { m with timer := none } else m :=
  if_congr beq_iff_eq rfl rfl

theorem lidderAtGuard_eq (l : Lidder) : l.atGuard = if l.state = .lidding then { l with cmdOut := false } else l :=
  if_congr beq_iff_eq rfl rfl

theorem lidderAtGuard_claims (l : Lidder) : l.atGuard.claims = l.claims := by
  unfold Lidder.atGuard
  split <;> rfl

/-- The line HALTED with every block but the station tin stopped (R29, R95, R114, R121, R123, R135, R141). -/
def stopped (s : State) : State :=
  { ({ s with
        line := { s.line with mode := .halted, guard := some .opened }
        sent := s.sent ++ [Sent.halt] } : State).notifyAll (.guard .opened) with
    canisters := mapVec Canister.atGuard s.canisters
    channels := mapVec Channel.atGuard s.channels
    gateOpen := false, capture := .none, scaleTimer := none, dripTimer := none
    m1 := s.m1.atGuard, m2 := s.m2.atGuard, lidder := s.lidder.atGuard }

/-! ### The station tin -/

/-- The undecided tin stopped by the guard, before it is settled: its channels are FREE but for bursts (R114, R115). -/
def struck (s : State) (t : TinCtx) : State :=
  { stopped s with
    tin := some { t with stop := .guard }, channels := mapVec Channel.atGuardStop s.channels }

theorem haltLine_empty (tin : s.tin = none) : s.haltLine = stopped s := by
  show State.guardTin _ = _
  unfold State.guardTin
  split
  · rfl
  · next t here => exact nomatch tin.symm.trans here

theorem haltLine_tin (tin : s.tin = some t) : s.haltLine =
    if s.station = .taring then { stopped s with tin := some { t with tare := none } }
    else if s.undecided t then (struck s t).settleGuard else stopped s := by
  show State.guardTin _ = _
  unfold State.guardTin
  split
  · next none => exact nomatch tin.symm.trans none
  · next k here =>
    obtain rfl : t = k := Option.some.inj (tin.symm.trans here)
    refine if_congr beq_iff_eq ?_ (if_congr Iff.rfl (congrArg State.settleGuard ?_) rfl)
    · exact congrArg (fun x => { stopped s with tin := x.map fun t : TinCtx => { t with tare := none } }) tin
    · exact congrArg (fun x => { stopped s with
        tin := x.map fun t : TinCtx => { t with stop := .guard }, channels := mapVec Channel.atGuardStop s.channels }) tin

theorem haltLine_undecided (tin : s.tin = some t) (later : s.station ≠ .taring) (undecided : s.undecided t = true) :
    s.haltLine = (struck s t).settleGuard := by
  rw [haltLine_tin tin, if_neg later, if_pos undecided]

theorem struck_anyBurst (s : State) (t : TinCtx) : (struck s t).anyBurst = true ↔ ∃ d, (s.chan d).state = .burst := by
  rw [State.anyBurst, exists_chan]
  refine exists_congr fun d => ?_
  have stop : (struck s t).chan d = (s.chan d).atGuardStop := mapVec_getFin _ s.channels d
  rw [stop, chanAtGuardStop_eq, beq_iff_eq]
  split
  · exact Iff.rfl
  · next free => exact iff_of_false (by decide) free

theorem struck_last (quiet : ∀ d, (s.chan d).state ≠ .burst) : (struck s t).anyBurst = false :=
  Bool.not_eq_true _ ▸ mt (struck_anyBurst s t).1 fun ⟨d, burst⟩ => quiet d burst

/-- A tin with no step dispensed is kept for a fresh tare, which a HALTED line does not begin (R115, R188). -/
theorem struck_kept (quiet : ∀ d, (s.chan d).state ≠ .burst) (zero : t.dispensed.sum = 0) :
    (struck s t).settleGuard = { stopped s with
      channels := Vector.replicate 4 Channel.free, station := .taring
      tin := some { t with stage := .taring, stop := .none, tare := none, gross := none, net := none } } := by
  have halted : (struck s t).halted = true := rfl
  rw [settleGuard_last rfl rfl (struck_last quiet), if_neg (by simp [zero]), keepTin_eq rfl, halted]
  rfl

/-- A tin with steps dispensed is spoiled and claims the lidder, which a HALTED line keeps from its take (R53, R115). -/
theorem struck_spoiled (quiet : ∀ d, (s.chan d).state ≠ .burst) (steps : 0 < t.dispensed.sum)
    (fresh : Source.station ∉ s.lidder.claims) : (struck s t).settleGuard = State.spoilAttempt { stopped s with
      channels := Vector.replicate 4 Channel.free, station := .handoff
      tin := some { t with route := .reject, word := some .spoiled, stop := .none, stage := .lidWait }
      lidder := { s.lidder.atGuard with claims := s.lidder.claims ++ [Source.station] } } t := by
  have claims : (struck s t).lidder.claims = s.lidder.claims := lidderAtGuard_claims s.lidder
  rw [settleGuard_last rfl rfl (struck_last quiet), if_pos steps, spoilTin_eq rfl (by rw [claims]; exact fresh),
    Lids.examineLidder_rests (.inr (.inl rfl)), claims]
  rfl

/-! ### The two movements of the switch -/

theorem guardOpened_again (mode : s.line.mode = .halted) (flag : s.line.guard = some .closed) : s.guardOpened =
    ({ s with line := { s.line with guard := some .opened } } : State).notifyAll (.guard .opened) := by
  rw [State.guardOpened, if_pos ((halted_iff s).2 mode), flag]

theorem guardOpened_ignored (mode : s.line.mode = .halted) (flag : s.line.guard ≠ some .closed) : s.guardOpened = s := by
  rw [State.guardOpened, if_pos ((halted_iff s).2 mode)]
  split
  · next closed => exact absurd closed flag
  · rfl
  · rfl

theorem guardOpened_halts (mode : s.line.mode ≠ .halted) : s.guardOpened = s.haltLine := by
  rw [State.guardOpened, halted_false mode]
  rfl

theorem guardClosed_follows (mode : s.line.mode = .halted) (flag : s.line.guard = some .opened) : s.guardClosed =
    ({ s with line := { s.line with guard := some .closed } } : State).notifyAll (.guard .closed) :=
  if_pos (by simp [(halted_iff s).2 mode, flag])

theorem guardClosed_ignored (h : s.line.mode ≠ .halted ∨ s.line.guard ≠ some .opened) : s.guardClosed = s := by
  refine if_neg fun follows => ?_
  simp only [Bool.and_eq_true, beq_iff_eq, halted_iff] at follows
  exact h.elim (· follows.1) (· follows.2)

/-- Settles O45: the flag's movements in HALTED, then the opening that halts the line, by what becomes of the tin. -/
theorem guardStopsTheLine : Obligations.GuardStopsTheLine := by
  intro s on o c
  have opens : exec .guardOpened s = .next o.guardOpened := congrArg _ (whenActive_on (s := o) on _)
  have closes : exec .guardClosed s = .next c.guardClosed := congrArg _ (whenActive_on (s := c) on _)
  refine ⟨undecided_iff s, fun mode => ⟨fun flag => ?_, fun flag => ?_, fun flag => ?_, fun flag => ?_⟩,
    fun mode => ⟨?_, ?_⟩⟩
  · rw [opens, guardOpened_again (s := o) mode flag]
  · rw [opens, guardOpened_ignored (s := o) mode flag]
  · rw [closes, guardClosed_follows (s := c) mode flag]
  · rw [closes, guardClosed_ignored (s := c) (.inr flag)]
  · rw [closes, guardClosed_ignored (s := c) (.inl mode)]
  · intro rest b
    have blocks : stopped o = b := by
      simp only [stopped, funext chanAtGuard_eq, mixerAtGuard_eq, lidderAtGuard_eq]
      rfl
    have lidder : s.lidder.atGuard = b.lidder := congrArg State.lidder blocks
    rw [opens, guardOpened_halts (s := o) mode]
    refine ⟨fun tin => ?_, fun t tin => ⟨fun taring => ?_, fun later decided => ?_, fun later undecided burst => ?_,
      fun later undecided quiet => ?_⟩⟩
    · rw [haltLine_empty (s := o) tin, blocks]
    · rw [haltLine_tin (s := o) tin, if_pos taring, blocks]
    · rw [haltLine_tin (s := o) tin, if_neg later, if_neg (by rw [show o.undecided t = false from decided]; decide), blocks]
    · rw [haltLine_undecided (s := o) tin later undecided, settleGuard_busy ((struck_anyBurst o t).2 burst), struck,
        blocks, funext chanAtGuardStop_eq]
    · rw [haltLine_undecided (s := o) tin later undecided]
      refine ⟨fun zero => ?_, fun steps fresh => ?_⟩
      · rw [struck_kept (s := o) quiet zero, blocks]
      · rw [struck_spoiled (s := o) quiet steps fresh, blocks, ← lidder]

end Sys2Proof.LineModes
end

section
/-! The receiver of a port (R160 to R163, R175): what each byte does, that the bytes of a frame are the frame examined
whole, and the statements O10, O20, O21 and O22. -/

namespace Sys2Proof.Ports

open Sys2Proof Sys2Proof.Machine Sys2Proof.Submit Sys2Proof.Requests Sys2Proof.Timers

variable {ps : PortState} {kind tag : Byte} {body : Bytes} {crc : BitVec 16}

/-! ### The bytes of a frame -/

/-- A frame ends with the second CRC byte (R175). -/
theorem frameBytes_concat (kind tag : Byte) (body : Bytes) (crc : BitVec 16) : frameBytes kind tag body crc =
    (0x7E :: byte body.length :: (kind :: tag :: (body ++ be 1 (crc.toNat / 256)))) ++ [byte crc.toNat] := by
  simp [frameBytes, be_succ 1]

/-- The bytes of a frame are taken apart as its fields (R175). -/
theorem completeFrame_frameBytes (ps : PortState) (kind tag : Byte) (body : Bytes) (crc : BitVec 16) :
    ps.completeFrame body.length (frameBytes kind tag body crc) = ps.hunt.examineFrame kind tag body crc := by
  have number : uN (frameBytes kind tag body crc) (4 + body.length) 2 = crc.toNat := by
    have split : frameBytes kind tag body crc =
        (0x7E :: byte body.length :: kind :: tag :: body) ++ (be 2 crc.toNat ++ []) := by simp [frameBytes]
    rw [split]
    exact uN_two (by simp; omega) crc.isLt
  have text : ((frameBytes kind tag body crc).drop 4).take body.length = body := List.take_left
  rw [PortState.completeFrame, number, text, BitVec.ofNat_toNat, BitVec.setWidth_eq]
  rfl

/-! ### One byte -/

/-- The receiver within a frame that has begun with the bytes `rx`, the gap limit running from full (R160). -/
def within (ps : PortState) (rx : Bytes) : PortState := { ps with rx := rx, gap := some 20 }

theorem byteIn_start (hunting : ps.rx = []) : ps.byteIn 0x7E = within ps [0x7E] := by
  rw [PortState.byteIn, hunting]; rfl

theorem byteIn_discarded {b : Byte} (hunting : ps.rx = []) (other : b ≠ 0x7E) : ps.byteIn b = ps := by
  rw [PortState.byteIn, hunting]; exact if_neg other

theorem byteIn_length {x b : Byte} (begun : ps.rx = [x]) (fits : b.toNat ≤ 240) : ps.byteIn b = within ps [x, b] := by
  rw [PortState.byteIn, begun]; exact if_neg (Nat.not_lt.2 fits)

theorem byteIn_tooLong {x b : Byte} (begun : ps.rx = [x]) (above : 240 < b.toNat) :
    ps.byteIn b = ps.hunt.addError frameErrorAnswer := by
  rw [PortState.byteIn, begun]; exact if_pos above

theorem byteIn_within {x len b : Byte} {l : Bytes} (begun : ps.rx = x :: len :: l) (more : l.length < len.toNat + 3) :
    ps.byteIn b = within ps (x :: len :: (l ++ [b])) := by
  rw [PortState.byteIn, begun]; exact if_neg (by omega)

/-- The byte that completes a frame has it examined whole (R161). -/
theorem byteIn_last {b : Byte} (fits : body.length ≤ 240) (whole : ps.rx ++ [b] = frameBytes kind tag body crc) :
    ps.byteIn b = ps.hunt.examineFrame kind tag body crc := by
  have announced : (byte body.length).toNat = body.length := byte_toNat (by omega)
  have before := whole
  rw [frameBytes_concat] at before
  obtain ⟨begun, rfl⟩ := List.append_singleton_inj.1 before
  rw [begun] at whole
  rw [PortState.byteIn, begun, ← completeFrame_frameBytes, ← whole]
  dsimp only
  rw [announced]
  exact if_pos (by simp [be_length])

/-! ### Byte after byte -/

/-- Bytes that do not reach the second CRC byte are kept in the order of their arrival. -/
theorem foldl_byteIn_within {x len : Byte} (m : Bytes) {l : Bytes} (more : l.length + m.length ≤ len.toNat + 3) :
    m.foldl PortState.byteIn (within ps (x :: len :: l)) = within ps (x :: len :: (l ++ m)) := by
  induction m generalizing l with
  | nil => rw [List.append_nil]; rfl
  | cons b m ih =>
    rw [List.length_cons] at more
    have kept : (within ps (x :: len :: l)).byteIn b = within ps (x :: len :: (l ++ [b])) :=
      byteIn_within rfl (by omega)
    rw [List.foldl_cons, kept, ih (by rw [List.length_append, List.length_singleton]; omega), List.append_assoc,
      List.singleton_append]

/-- Settles O10: start byte and length byte open the frame, the bytes up to the first CRC byte are kept in order, and the
second has the whole examined. -/
theorem frameBytesAreExaminedAsTheFrame : Obligations.FrameBytesAreExaminedAsTheFrame := by
  intro ps kind tag body crc hunting fits
  have announced : (byte body.length).toNat = body.length := byte_toNat (by omega)
  have begun : (within ps [0x7E]).byteIn (byte body.length) = within ps [0x7E, byte body.length] :=
    byteIn_length rfl (announced.le.trans fits)
  have kept := foldl_byteIn_within (ps := ps) (x := 0x7E) (len := byte body.length) (l := [])
    (kind :: tag :: (body ++ be 1 (crc.toNat / 256))) (by simp [be_length, announced])
  rw [List.nil_append] at kept
  rw [frameBytes_concat, List.foldl_concat, List.foldl_cons, byteIn_start hunting, List.foldl_cons, begun, kept]
  exact byteIn_last fits (frameBytes_concat kind tag body crc).symm

/-! ### A frame examined -/

theorem kindOf?_codeKind (k : ReqKind) : kindOf? (codeKind k) = some k := by cases k <;> rfl

theorem kindOf?_none {b : Byte} (other : ∀ k, codeKind k ≠ b) : kindOf? b = none :=
  List.find?_eq_none.2 fun k _ => by simpa using other k

theorem addError_eq (ps : PortState) (kind tag : Byte) (body : Bytes) :
    ps.addError { kind := kind, tag := tag, body := body, isError := true } =
      { ps with out := withError ps.out kind tag body } := by
  unfold PortState.addError
  split
  · next room => exact congrArg (fun out => { ps with out := out }) (if_pos room).symm
  · next full => exact congrArg (fun out => { ps with out := out }) (if_neg full).symm

theorem examineFrame_joins {k : ReqKind} (named : codeKind k = kind) (agrees : crc = frameCrc kind tag body)
    (room : ps.hold.length < 2) :
    ps.examineFrame kind tag body crc = { ps with hold := ps.hold ++ [⟨k, tag, body⟩] } := by
  rw [PortState.examineFrame, if_pos agrees, ← named, kindOf?_codeKind]
  exact if_pos room

theorem examineFrame_overrun {k : ReqKind} (named : codeKind k = kind) (agrees : crc = frameCrc kind tag body)
    (full : 2 ≤ ps.hold.length) :
    ps.examineFrame kind tag body crc = { ps with out := withError ps.out (kind + 0x80) tag [0x12, 0, 0] } := by
  rw [PortState.examineFrame, if_pos agrees, ← named, kindOf?_codeKind, ← addError_eq]
  exact if_neg (Nat.not_lt.2 full)

theorem addError_frameError (ps : PortState) :
    ps.addError frameErrorAnswer = { ps with out := withError ps.out 0xFF 0 [0x13, 0, 0] } := addError_eq ps _ _ _

theorem examineFrame_error (bad : crc ≠ frameCrc kind tag body ∨ ∀ k, codeKind k ≠ kind) :
    ps.examineFrame kind tag body crc = { ps with out := withError ps.out 0xFF 0 [0x13, 0, 0] } := by
  rw [← addError_frameError, PortState.examineFrame]
  split
  · next agrees => rw [kindOf?_none (bad.resolve_left fun other => other agrees)]
  · rfl

/-! ### The events of the link -/

section
variable {s : State} {p : Port}

/-- FRAME_RECEIVED completes its frame if the bytes received so far are its first bytes (log entry 6). -/
theorem exec_frameReceived (on : s.power = .on) (fits : body.length ≤ 240)
    (begun : (s.port p).rx <+: frameBytes kind tag body crc) : exec (.frameReceived p kind tag body crc) s =
      .next (s.setPort p ((s.port p).hunt.examineFrame kind tag body crc)) := by
  have carried : bodyFits body = true := decide_eq_true fits
  have received : (s.port p).receive kind tag body crc = (s.port p).hunt.examineFrame kind tag body crc :=
    if_pos (List.isPrefixOf_iff_prefix.2 begun)
  simp only [exec, execFrameReceived, carried, if_true, whenActive_on on, received]

theorem exec_frameReceived_other (on : s.power = .on) (fits : body.length ≤ 240)
    (other : ¬ (s.port p).rx <+: frameBytes kind tag body crc) :
    exec (.frameReceived p kind tag body crc) s = .next s := by
  have carried : bodyFits body = true := decide_eq_true fits
  have received : (s.port p).receive kind tag body crc = s.port p :=
    if_neg fun begun => other (List.isPrefixOf_iff_prefix.1 begun)
  simp only [exec, execFrameReceived, carried, if_true, whenActive_on on, received, setPort_port]

theorem exec_frameStartByte (on : s.power = .on) {v : PortState} (received : (s.port p).byteIn 0x7E = v) :
    exec (.frameStartByte p) s = .next (s.setPort p v) := by
  simp only [exec, execFrameStartByte, State.byteIn, whenActive_on on, received]

theorem exec_lengthByteAbove240 (on : s.power = .on) {b : Byte} (above : 240 < b.toNat) {v : PortState}
    (received : (s.port p).byteIn b = v) : exec (.lengthByteAbove240 p b) s = .next (s.setPort p v) := by
  have carried : Config.maxBody < b.toNat := above
  simp only [exec, execLengthByteAbove240, carried, if_true, State.byteIn, whenActive_on on, received]

end

/-- Settles O20: the hold and the CRC decide what an examined frame earns. -/
theorem frameReceivedJoinsHoldOrEarnsError : Obligations.FrameReceivedJoinsHoldOrEarnsError := by
  refine ⟨fun kind tag body => rfl, fun s p kind tag body crc on fits =>
    ⟨exec_frameReceived_other on fits, fun begun => ?_⟩⟩
  have examined {v : PortState} (h : (s.port p).hunt.examineFrame kind tag body crc = v) :
      exec (.frameReceived p kind tag body crc) s = .next (s.setPort p v) := h ▸ exec_frameReceived on fits begun
  exact ⟨fun k named agrees room => examined (examineFrame_joins named agrees room),
    fun k named agrees full => examined (examineFrame_overrun named agrees full),
    fun bad => examined (examineFrame_error bad)⟩

/-- Settles O21: each event is its byte at the receiver, by the bytes received before. -/
theorem receiverTakesBytesAndGaps : Obligations.ReceiverTakesBytesAndGaps := by
  intro s p on
  have completes {b : Byte} {kind tag : Byte} {body : Bytes} {crc : BitVec 16} (fits : body.length ≤ 240)
      (whole : (s.port p).rx ++ [b] = frameBytes kind tag body crc) :
      exec (.frameReceived p kind tag body crc) s = .next (s.setPort p ((s.port p).byteIn b)) := by
    rw [exec_frameReceived on fits ⟨[b], whole⟩, byteIn_last fits whole]
  refine ⟨congrArg _ (whenActive_on on _), fun hunting => exec_frameStartByte on (byteIn_start hunting),
    fun x begun => exec_frameStartByte on (byteIn_length begun (by decide)),
    fun x len l begun more => exec_frameStartByte on (byteIn_within begun more),
    fun kind tag body crc fits whole => (exec_frameStartByte on rfl).trans (completes fits whole).symm,
    fun b above => ⟨fun hunting => ?_, fun x begun => ?_,
      fun x len l begun more => exec_lengthByteAbove240 on above (byteIn_within begun more),
      fun kind tag body crc fits whole => (exec_lengthByteAbove240 on above rfl).trans (completes fits whole).symm⟩⟩
  · have other : b ≠ 0x7E := by rintro rfl; exact absurd above (by decide)
    rw [exec_lengthByteAbove240 on above (byteIn_discarded hunting other), setPort_port]
  · rw [exec_lengthByteAbove240 on above (byteIn_tooLong begun above), addError_frameError]; rfl

/-- Settles O22: the oldest answer out goes to the link. -/
theorem answersAreSentInOrder : Obligations.AnswersAreSentInOrder := by
  intro s p on
  have sent : exec (.answerSent p) s = .next (s.answerSent p) := congrArg _ (whenActive_on on _)
  refine ⟨fun none => ?_, fun a rest out => ?_⟩
  · rw [sent, State.answerSent, none]
  · rw [sent, State.answerSent, out]; rfl

end Sys2Proof.Ports
end

section
/-! A port controller within its bounds (R160, R162, R163, R166, R168): what keeps it there at the receiver, when notices
arrive, and when a request is taken and answered. -/

namespace Sys2Proof.Ports

open Sys2Proof Sys2Proof.Machine

variable {ps : PortState}

/-! ### The receiver -/

theorem ok_within (ok : ps.Ok) {rx : Bytes} (begun : rx ≠ []) : (within ps rx).Ok :=
  { ok with gap := by simp [within, begun] }

theorem ok_hunt (ok : ps.Ok) : ps.hunt.Ok := { ok with gap := rfl }

/-- An error answer is produced while fewer than 2 are out (R163). -/
theorem ok_addError (ok : ps.Ok) {a : Answer} (error : a.isError = true) : (ps.addError a).Ok := by
  unfold PortState.addError
  split
  · next room =>
    refine { ok with errors := ?_, answers := ?_ }
    · rw [List.filter_append, List.length_append]
      exact Nat.add_le_add (Nat.le_of_lt_succ room) (List.length_filter_le _ [a])
    · simpa [List.filter_append, error] using ok.answers
  · exact ok

/-- A frame joins the hold while fewer than 2 wait (R162). -/
theorem ok_examineFrame (ok : ps.Ok) (kind tag : Byte) (body : Bytes) (crc : BitVec 16) :
    (ps.examineFrame kind tag body crc).Ok := by
  unfold PortState.examineFrame
  split
  · split
    · exact ok_addError ok rfl
    · split
      · next room => exact { ok with hold := by rw [List.length_append]; exact room }
      · exact ok_addError ok rfl
  · exact ok_addError ok rfl

theorem ok_byteIn (ok : ps.Ok) (b : Byte) : (ps.byteIn b).Ok := by
  unfold PortState.byteIn
  split
  · split
    · exact ok_within ok (List.cons_ne_nil _ _)
    · exact ok
  · split
    · exact ok_addError (ok_hunt ok) rfl
    · exact ok_within ok (List.cons_ne_nil _ _)
  · split
    · exact ok_examineFrame (ok_hunt ok) _ _ _ _
    · exact ok_within ok (List.cons_ne_nil _ _)

theorem ok_receive (ok : ps.Ok) (kind tag : Byte) (body : Bytes) (crc : BitVec 16) :
    (ps.receive kind tag body crc).Ok := by
  unfold PortState.receive
  split
  · exact ok_examineFrame (ok_hunt ok) _ _ _ _
  · exact ok

/-- An answer sent leaves fewer answers out (R163). -/
theorem ok_sent {a : Answer} {rest : List Answer} (ok : ps.Ok) (out : ps.out = a :: rest) :
    ({ ps with out := rest } : PortState).Ok := by
  have fewer (f : Answer → Bool) : (rest.filter f).length ≤ (ps.out.filter f).length := by
    rw [out]; exact ((List.sublist_cons_self a rest).filter f).length_le
  exact { ok with errors := (fewer _).trans ok.errors, answers := (fewer _).trans ok.answers }

theorem ok_tick (ok : ps.Ok) : ({ ps with gap := tickTimer ps.gap } : PortState).Ok :=
  { ok with gap := by simpa [tickTimer] using ok.gap }

/-! ### Notices -/

theorem ok_keeps {a b : PortState} (keeps : a.Keeps b) (ok : a.Ok) : b.Ok where
  hold := by rw [keeps.hold]; exact ok.hold
  errors := by rw [keeps.out]; exact ok.errors
  answers := by rw [keeps.out]; exact ok.answers
  notices := (keeps.notices ⟨ok.notices, ok.attention⟩).notices
  attention := (keeps.notices ⟨ok.notices, ok.attention⟩).attention
  gap := by rw [keeps.gap, keeps.rx]; exact ok.gap

theorem keeps_rest {a b : PortState} (keeps : a.Keeps b) :
    b = { a with notices := b.notices, lost := b.lost, attention := b.attention } := by
  obtain ⟨rx, gap, hold, out, -⟩ := keeps
  cases b
  simp only at rx gap hold out
  rw [rx, gap, hold, out]

/-- A fetch leaves fewer notices, and the attention line asserted exactly if some are left (R168, R169). -/
theorem fetch_keeps (ps : PortState) : ps.Keeps ps.fetch :=
  ⟨rfl, rfl, rfl, rfl, fun ok => ⟨(dropOldest_length_le _ _).trans ok.notices, rfl⟩⟩

theorem clear_keeps (ps : PortState) : ps.Keeps ps.clear := ⟨rfl, rfl, rfl, rfl, fun _ => ⟨Nat.zero_le _, rfl⟩⟩

/-! ### What happens between two states is notices alone -/

/-- Between two states nothing but notices reached the ports. -/
def KeepsPorts (s t : State) : Prop := ∀ q, (s.port q).Keeps (t.port q)

theorem KeepsPorts.refl (s : State) : KeepsPorts s s := fun _ => .refl _

theorem KeepsPorts.trans {a b c : State} (h : KeepsPorts a b) (k : KeepsPorts b c) : KeepsPorts a c :=
  fun q => (h q).trans (k q)

theorem KeepsPorts.of_works {s t : State} (w : Works s t) : KeepsPorts s t := w.ports

theorem KeepsPorts.of_eq {s t : State} (ports : t.ports = s.ports) : KeepsPorts s t := fun q => by
  rw [port_congr ports]; exact .refl _

/-- Work of the blocks behind a change that leaves the ports. -/
theorem KeepsPorts.then_works {s u t : State} (w : Works u t) (ports : u.ports = s.ports) : KeepsPorts s t :=
  .trans (.of_eq ports) (.of_works w)

theorem KeepsPorts.whenActive {s : State} {f : State → State} (keeps : KeepsPorts s (f s)) :
    KeepsPorts s (s.whenActive f) := by
  unfold State.whenActive
  split
  · exact keeps
  · exact .refl s

/-! ### A request taken and answered -/

/-- A port after a request has left its hold and its answer has been produced (R162, R163). -/
def taken (ps : PortState) (a : Answer) : PortState := { ps with hold := ps.hold.tail, out := ps.out ++ [a] }

/-- What the taking of a request with the answer body `b` makes of state `s`: the frame has left the hold, the answer is
out, other ports saw notices alone, and a refusal changed nothing else. -/
structure Answered (s : State) (p : Port) (k : ReqKind) (tag : Byte) (b : Bytes) (t : State) : Prop where
  length : 3 ≤ b.length
  port : (taken (s.port p) (requestAnswer k tag b)).Keeps (t.port p)
  others : ∀ q, p ≠ q → (s.port q).Keeps (t.port q)
  refused : b.head? ≠ some 0 → t = s.replied p k tag b

section
variable {s : State} {p : Port} {k : ReqKind} {tag : Byte} {body : Bytes} {refusal : State → Option Nak}
  {effect : State → State × Bytes}

theorem answered_replied {b : Bytes} (length : 3 ≤ b.length) : Answered s p k tag b (s.replied p k tag b) where
  length := length
  port := by
    rw [State.replied, port_setPort_same]
    exact .refl _
  others q other := by
    rw [State.replied, port_setPort_other s other]
    exact .refl _
  refused _ := rfl

theorem answered_ok {t : State} (keeps : KeepsPorts (s.popHold p) t) (content : Bytes) :
    Answered s p k tag (okBytes content) (t.answer p (requestAnswer k tag (okBytes content))) where
  length := Nat.le_add_left 3 content.length
  port := by
    have popped := keeps p
    rw [State.popHold, port_setPort_same] at popped
    obtain ⟨rx, gap, hold, out, notices⟩ := popped
    rw [State.answer, port_setPort_same, out]
    refine ⟨rx, gap, hold, rfl, fun ok => ?_⟩
    have after : (t.port p).NoticesOk := notices ⟨ok.notices, ok.attention⟩
    exact ⟨after.notices, after.attention⟩
  others q other := by
    have popped := keeps q
    rw [State.popHold, port_setPort_other s other] at popped
    rw [State.answer, port_setPort_other t other]
    exact popped
  refused code := absurd rfl code

/-- A request taken is answered once. -/
theorem take_answered (takes : s.Takes p k tag body) (keeps : ∀ u, KeepsPorts u (effect u).1) :
    ∃ b, Answered s p k tag b (s.take p k tag body refusal effect) := by
  by_cases admitted : admits k p = true
  · cases refused : refusal (s.popHold p) with
    | none => exact ⟨_, by rw [take_ok takes admitted refused]; exact answered_ok (keeps _) _⟩
    | some r =>
      exact ⟨r.bytes, by rw [take_refused takes admitted refused]; exact answered_replied (Nat.le_add_left 3 _)⟩
  · refine ⟨[1, 0, 0], ?_⟩
    rw [take_role takes (Bool.not_eq_true _ ▸ admitted)]
    exact answered_replied (le_refl 3)

/-- A port takes a request with no other request's answer out (R163). -/
theorem ok_taken {a : Answer} (takes : s.Takes p k tag body) (own : a.isError = false) (ok : (s.port p).Ok) :
    (taken (s.port p) a).Ok := by
  obtain ⟨-, -, errors⟩ := takes
  have none : (s.port p).out.filter (fun a => !a.isError) = [] :=
    List.filter_eq_nil_iff.2 fun a out => by simp [errors a out]
  refine { ok with hold := ?_, errors := ?_, answers := ?_ }
  · exact (List.length_tail ▸ Nat.sub_le _ _ : (s.port p).hold.tail.length ≤ _).trans ok.hold
  · simpa [taken, List.filter_append, own] using ok.errors
  · simp [taken, List.filter_append, own, none]

end

end Sys2Proof.Ports
end

section
/-! What every command is at the ports, said once: a request, an event of one link, a start, RESET or loss of power, or an
event that reaches the ports by notices alone; and the statements O12, O19, O23 and O25. -/

namespace Sys2Proof.Ports

open Sys2Proof Sys2Proof.Machine

/-! ### The effects of requests that are more than work of the blocks -/

section
variable (b : Bytes) (s : State)

theorem keepsPorts_submit (p : Port) : KeepsPorts s (submitEffect p b s).1 := by
  unfold submitEffect
  split
  · exact .refl s
  · dsimp only [State.admitJob]
    split
    · exact .then_works ((((works_joinQueue _ _).trans (works_notifyJob _ _ _)).trans (works_wake _)).trans
        (works_select _)) rfl
    · exact .then_works ((((works_setWait _ _ _).trans (works_notifyWait _ _ _ _)).trans
        (works_notifyJob _ _ _)).trans (works_select _)) rfl

theorem keepsPorts_install : KeepsPorts s (installEffect b s).1 := by
  unfold installEffect
  exact .then_works (works_examineLow _ _) rfl

theorem keepsPorts_calibrate : KeepsPorts s (calibrateEffect b s).1 := by
  unfold calibrateEffect
  refine .trans ?_ (.of_works (works_selectAfter _ _))
  split
  · exact .then_works (works_walk _ _) rfl
  · exact .of_eq rfl

theorem keepsPorts_refillEnd : KeepsPorts s (refillEndEffect b s).1 := by
  unfold refillEndEffect
  exact .then_works ((works_walk _ _).trans (works_selectAfter _ _)) rfl

theorem keepsPorts_adjust : KeepsPorts s (adjustEffect b s).1 := by
  unfold adjustEffect
  refine .trans ?_ (.of_works (works_selectAfter _ _))
  split
  · exact .then_works (works_examineLow _ _) rfl
  · split
    · exact .then_works (works_walk _ _) rfl
    · exact .of_eq rfl

theorem keepsPorts_setLine : KeepsPorts s (setLineEffect b s).1 := by
  unfold setLineEffect
  dsimp only
  split
  · exact .then_works (works_select _) rfl
  · exact .of_eq rfl

theorem keepsPorts_fetch (p : Port) : KeepsPorts s (fetchEffect p s).1 :=
  .of_works (works_setPort s (fetch_keeps _))

theorem keepsPorts_clear (p : Port) : KeepsPorts s (clearEffect p s).1 := fun q => by
  rw [JobRequests.clearEffect_port]
  split
  · next own => subst own; exact clear_keeps _
  · exact .refl _

end

/-! ### Every command -/

/-- An event of the link of port `p` (R160 to R163). -/
inductive LinkEvent (p : Port) : Instr → Prop
  | frame (kind tag : Byte) (body : Bytes) (crc : BitVec 16) : LinkEvent p (.frameReceived p kind tag body crc)
  | gap : LinkEvent p (.frameGapTimeout p)
  | sent : LinkEvent p (.answerSent p)
  | start : LinkEvent p (.frameStartByte p)
  | long (len : Byte) : LinkEvent p (.lengthByteAbove240 p len)

/-- The events that set every port to a start value or clear its notices (R156). -/
inductive Restart : Instr → Prop
  | reset (writing : Option StoreKey) : Restart (.resetAssert writing)
  | loss (writing : Option StoreKey) : Restart (.powerLoss writing)
  | start : Restart .partStart

/-- What command `i` is in state `s` at the ports, by its outcome. -/
inductive PortActs (i : Instr) (s : State) : Host.Outcome State Fault Refusal → Prop
  | request (p : Port) (k : ReqKind) (tag : Byte) (body : Bytes) {refusal : State → Option Nak}
      {effect : State → State × Bytes} (row : requestOf i = some (p, ⟨k, tag, body⟩))
      (keeps : ∀ u, KeepsPorts u (effect u).1) : PortActs i s (.next (s.take p k tag body refusal effect))
  | notices {t : State} (row : requestOf i = none) (keeps : KeepsPorts s t) : PortActs i s (.next t)
  | link {p : Port} {t : State} (is : LinkEvent p i) (others : ∀ q, p ≠ q → t.port q = s.port q)
      (ok : (s.port p).Ok → (t.port p).Ok) : PortActs i s (.next t)
  | restart {t : State} (is : Restart i) (ok : s.PortsOk → t.PortsOk) : PortActs i s (.next t)
  | illFormed (r : Refusal) (row : requestOf i = none) : PortActs i s (.refused r)

section
variable {i : Instr} {s : State}

theorem acts_works {p : Port} {k : ReqKind} {tag : Byte} {body : Bytes} {refusal : State → Option Nak}
    {effect : State → State × Bytes} (row : requestOf i = some (p, ⟨k, tag, body⟩))
    (works : ∀ u, Works u (effect u).1) : PortActs i s (.next (s.take p k tag body refusal effect)) :=
  .request p k tag body row fun u => .of_works (works u)

/-- A request whose effect leaves the ports. -/
theorem acts_plain {p : Port} {k : ReqKind} {tag : Byte} {body : Bytes} {refusal : State → Option Nak}
    {effect : State → State × Bytes} (row : requestOf i = some (p, ⟨k, tag, body⟩))
    (ports : ∀ u, (effect u).1.ports = u.ports) : PortActs i s (.next (s.take p k tag body refusal effect)) :=
  .request p k tag body row fun u => .of_eq (ports u)

/-- The row of a kind that two rows share takes the frames whose body begins with 1, or all others (log entry 5). -/
theorem acts_row {body : Bytes} {t u : State}
    (one : body.head? = some 1 → PortActs i s (.next t)) (other : body.head? ≠ some 1 → PortActs i s (.next u)) :
    PortActs i s (.next (if body.head? == some 1 then t else u)) := by
  split
  · next h => exact one (beq_iff_eq.1 h)
  · next h => exact other fun e => h (beq_iff_eq.2 e)

theorem acts_event {f : State → State} (row : requestOf i = none) (works : Works s (f s)) :
    PortActs i s (.next (s.whenActive f)) := .notices row (.whenActive (.of_works works))

/-- The guard input moves, and what the part does at it follows. -/
theorem acts_guard {g : GuardState} {f : State → State} (row : requestOf i = none) (works : ∀ u, Works u (f u)) :
    PortActs i s (.next (({ s with guardInput := g }).whenActive f)) :=
  .notices row (.trans (b := { s with guardInput := g }) (.of_eq rfl) (.whenActive (.of_works (works _))))

theorem acts_link {p : Port} (is : LinkEvent p i) {f : State → State} (others : ∀ q, p ≠ q → (f s).port q = s.port q)
    (ok : (s.port p).Ok → ((f s).port p).Ok) : PortActs i s (.next (s.whenActive f)) := by
  unfold State.whenActive
  split
  · exact .link is others ok
  · exact .link is (fun _ _ => rfl) id

/-- An event of a link that makes one state of its port's controller from another. -/
theorem acts_port {p : Port} (is : LinkEvent p i) {v : PortState → PortState} (ok : (s.port p).Ok → (v (s.port p)).Ok) :
    PortActs i s (.next (s.whenActive fun u => u.setPort p (v (u.port p)))) :=
  acts_link is (fun _ other => port_setPort_other s other _) fun before => by rw [port_setPort_same]; exact ok before

theorem acts_byte {p : Port} (is : LinkEvent p i) (b : Byte) : PortActs i s (.next (s.byteIn p b)) :=
  acts_port (v := fun v => v.byteIn b) is fun ok => ok_byteIn ok b

/-- An event with operands that its line or port can carry, or a refusal. -/
theorem acts_carried {c : Prop} [Decidable c] {t : State} (r : Refusal) (row : requestOf i = none)
    (acts : PortActs i s (.next t)) : PortActs i s (if c then .next t else .refused r) := by
  split
  · exact acts
  · exact .illFormed r row

theorem acts_answerSent (p : Port) : PortActs (.answerSent p) s (.next (s.whenActive fun u => u.answerSent p)) := by
  cases out : (s.port p).out with
  | nil =>
    have same : s.answerSent p = s := by rw [State.answerSent, out]
    exact acts_link .sent (fun q _ => by rw [same]) (by rw [same]; exact id)
  | cons a rest =>
    have sent : (s.answerSent p).ports = (s.setPort p { s.port p with out := rest }).ports := by
      rw [State.answerSent, out]; rfl
    refine acts_link .sent (fun q other => ?_) fun ok => ?_
    · rw [port_congr sent, port_setPort_other s other]
    · rw [port_congr sent, port_setPort_same]; exact ok_sent ok out

/-! ### RESET, loss of power and the start -/

theorem portsOk_replicate {t : State} {v : PortState} (ports : t.ports = Vector.replicate 4 v) (ok : v.Ok) :
    t.PortsOk := fun p => by
  rw [State.port, ports]
  simpa using ok

theorem portsOk_reset (writing : Option StoreKey) (ok : s.PortsOk) : (s.assertReset writing).PortsOk := fun p => by
  have cleared : (s.assertReset writing).port p = (s.port p).clear := mapVec_getFin _ _ _
  rw [cleared]
  exact ok_keeps (clear_keeps _) (ok p)

theorem portsOk_dark (g : GuardState) (st : Store) (l : List Instr) : (State.dark g st l).PortsOk :=
  portsOk_replicate rfl ⟨by decide, by decide, by decide, by decide, rfl, rfl⟩

theorem portsOk_start (g : GuardState) (st : Store) (l : List Instr) : (State.start g st l).PortsOk :=
  portsOk_replicate rfl ⟨Nat.zero_le _, Nat.zero_le _, Nat.zero_le _, Nat.le_add_left 1 15, rfl, rfl⟩

theorem acts_restart {c : Prop} [Decidable c] {t : State} (is : Restart i) (ok : t.PortsOk) :
    PortActs i s (.next (if c then s else t)) := by
  split
  · exact .restart is id
  · exact .restart is fun _ => ok

end

theorem portActs_exec (i : Instr) (s : State) : PortActs i s (exec i s) := by
  cases i with
  | submit p tag body => exact .request p _ tag body rfl fun u => keepsPorts_submit body u p
  | cancel p tag body => exact acts_works rfl (works_cancelEffect body)
  | resume p tag body => exact acts_works rfl (works_resumeEffect body)
  | retire p tag body => exact acts_plain rfl fun _ => rfl
  | readJob p tag body => exact acts_plain rfl fun _ => rfl
  | readTin p tag body => exact acts_plain rfl fun _ => rfl
  | install p tag body => exact .request p _ tag body rfl (keepsPorts_install body)
  | remove p tag body => exact acts_plain rfl fun _ => rfl
  | calibrate p tag body => exact .request p _ tag body rfl (keepsPorts_calibrate body)
  | refillBegin p tag body => exact acts_plain rfl fun _ => rfl
  | refillEnd p tag body => exact .request p _ tag body rfl (keepsPorts_refillEnd body)
  | adjust p tag body => exact .request p _ tag body rfl (keepsPorts_adjust body)
  | readCanister p tag body => exact acts_plain rfl fun _ => rfl
  | setTinClassSet p tag body =>
    exact acts_row (body := body) (fun one => .notices (if_pos one) (.refl s)) fun other =>
      acts_plain (if_neg other) fun _ => rfl
  | setTinClassDelete p tag body =>
    exact acts_row (body := body) (fun one => acts_plain (if_pos one) fun _ => rfl) fun other =>
      .notices (if_neg other) (.refl s)
  | setLine p tag body => exact .request p _ tag body rfl (keepsPorts_setLine body)
  | lineModePark p tag body =>
    exact acts_row (body := body) (fun one => .notices (if_pos one) (.refl s)) fun other =>
      acts_works (if_neg other) works_parkEffect
  | lineModeWake p tag body =>
    exact acts_row (body := body) (fun one => acts_works (if_pos one) works_wakeEffect) fun other =>
      .notices (if_neg other) (.refl s)
  | resumeLine p tag body => exact acts_works rfl works_resumeLineEffect
  | mixerReturn p tag body => exact acts_works rfl (works_mixerReturnEffect body)
  | find p tag body => exact acts_plain rfl fun _ => rfl
  | status p tag body => exact acts_plain rfl fun _ => rfl
  | fetchNotice p tag body => exact .request p _ tag body rfl fun u => keepsPorts_fetch u p
  | clearPort p tag body => exact .request p _ tag body rfl fun u => keepsPorts_clear u p
  | frameReceived p kind tag body crc =>
    exact acts_carried _ rfl (acts_port (.frame kind tag body crc) fun ok => ok_receive ok _ _ _ _)
  | frameGapTimeout p => exact acts_port .gap ok_hunt
  | answerSent p => exact acts_answerSent p
  | burstDone p n => exact acts_event rfl (works_burstDone s p n)
  | chargeDone p => exact acts_event rfl (works_chargeDone s p)
  | recircDone p => exact acts_event rfl (works_recircDone s p)
  | haltReport p n => exact acts_event rfl (works_haltReport s p n)
  | reading mass stable overload => exact acts_carried _ rfl (acts_event rfl (works_reading s _ _ _))
  | scan cls base => exact acts_carried _ rfl (acts_event rfl (works_scan s _ _))
  | loaded m => exact acts_event rfl (works_loaded s m)
  | clampFault m => exact acts_event rfl (works_clampFault s m)
  | lidded => exact acts_event rfl (works_lidded s)
  | tinTaken x => exact acts_event rfl (works_tinTaken s x)
  | guardOpened => exact acts_guard rfl works_guardOpened
  | guardClosed => exact acts_guard rfl works_guardClosed
  | resetAssert writing =>
    show PortActs _ s (.next (s.whenActive _))
    unfold State.whenActive
    split
    · exact .restart (.reset writing) (portsOk_reset writing)
    · exact .restart (.reset writing) id
  | partStart => exact acts_restart .start (portsOk_start _ _ _)
  | settleTimerExpiry p => exact acts_event rfl (works_settleExpiry s p)
  | keepStirTimerExpiry p => exact acts_event rfl (works_keepStirExpiry s p)
  | callTimerExpiry => exact acts_event rfl (works_callExpiry s)
  | dwellTimerExpiry d => exact acts_event rfl (works_dwellExpiry s d)
  | dripTimerExpiry => exact acts_event rfl (works_dripExpiry s)
  | scaleSettleTimeout => exact acts_event rfl (works_scaleTimeout s)
  | mixTimerExpiry m => exact acts_event rfl (works_mixExpiry s m)
  | powerLoss writing => exact acts_restart (.loss writing) (portsOk_dark _ _ _)
  | frameStartByte p => exact acts_byte .start 0x7E
  | lengthByteAbove240 p len => exact acts_carried _ rfl (acts_byte (.long len) len)

/-! ### The bounds over every step -/

theorem portsOk_of_keeps {s t : State} (keeps : KeepsPorts s t) (ok : s.PortsOk) : t.PortsOk :=
  fun q => ok_keeps (keeps q) (ok q)

theorem portsOk_take {s : State} {p : Port} {k : ReqKind} {tag : Byte} {body : Bytes} {refusal : State → Option Nak}
    {effect : State → State × Bytes} (keeps : ∀ u, KeepsPorts u (effect u).1) (ok : s.PortsOk) :
    (s.take p k tag body refusal effect).PortsOk := by
  by_cases takes : s.Takes p k tag body
  · obtain ⟨b, answered⟩ := take_answered (refusal := refusal) takes keeps
    intro q
    by_cases own : p = q
    · subst own
      exact ok_keeps answered.port (ok_taken takes rfl (ok p))
    · exact ok_keeps (answered.others q own) (ok q)
  · rw [take_not takes]; exact ok

theorem portsOk_exec {i : Instr} {s t : State} (h : exec i s = .next t) (ok : s.PortsOk) : t.PortsOk := by
  have acts : PortActs i s (.next t) := h ▸ portActs_exec i s
  cases acts with
  | request p k tag body row keeps => exact portsOk_take keeps ok
  | notices row keeps => exact portsOk_of_keeps keeps ok
  | @link p _ is others own =>
    intro q
    by_cases here : p = q
    · subst here; exact own (ok p)
    · rw [others q here]; exact ok q
  | restart is restarted => exact restarted ok

theorem portsOk_tick {s : State} (ok : s.PortsOk) : s.tick.PortsOk := by
  unfold State.tick State.whenActive
  split
  · intro p
    show (mapVec (fun v : PortState => { v with gap := tickTimer v.gap }) s.ports)[portIdx p].Ok
    rw [mapVec_getFin]
    exact ok_tick (ok p)
  · exact ok

/-- Settles O12: a request adds its answer where none was out, an event of a link keeps the bounds of its port, a restart
leaves each port within them, and all else reaches the ports by notices. -/
theorem stepsKeepPortsWithinBounds : Obligations.StepsKeepPortsWithinBounds := by
  intro s t ok h
  unfold step at h
  split at h
  · cases h; exact portsOk_tick ok
  · exact portsOk_exec h ok

/-! ### Requests and their ports -/

/-- What a request row is, as a taking at its port. -/
theorem exec_request {i : Instr} {p : Port} {k : ReqKind} {tag : Byte} {body : Bytes}
    (row : requestOf i = some (p, ⟨k, tag, body⟩)) (s : State) :
    ∃ (refusal : State → Option Nak) (effect : State → State × Bytes),
      exec i s = .next (s.take p k tag body refusal effect) ∧ ∀ u, KeepsPorts u (effect u).1 := by
  have acts := portActs_exec i s
  generalize exec i s = outcome at acts ⊢
  cases acts with
  | request q l tag' body' row' keeps =>
    rw [row] at row'
    cases row'
    exact ⟨_, _, rfl, keeps⟩
  | notices none => rw [row] at none; cases none
  | link is => cases is <;> cases row
  | restart is => cases is <;> cases row
  | illFormed r none => rw [row] at none; cases none

/-- Settles O19: a request, an event of a link and a restart are excluded for the port by the premises, but for the
notices that another port's request sends. -/
theorem portsStandApart : Obligations.PortsStandApart := by
  intro i s t q h otherRequest otherFrame otherGap otherSent otherStart otherLong noReset noLoss noStart
  have acts : PortActs i s (.next t) := h ▸ portActs_exec i s
  refine keeps_rest ?_
  cases acts with
  | request p k tag body row keeps =>
    by_cases takes : s.Takes p k tag body
    · obtain ⟨b, answered⟩ := take_answered takes keeps
      exact answered.others q (otherRequest p _ row)
    · rw [take_not takes]; exact .refl _
  | notices row keeps => exact keeps q
  | @link p _ is others own =>
    have other : p ≠ q := by
      rintro rfl
      cases is with
      | frame kind tag body crc => exact otherFrame kind tag body crc rfl
      | gap => exact otherGap rfl
      | sent => exact otherSent rfl
      | start => exact otherStart rfl
      | long len => exact otherLong len rfl
    rw [others q other]
    exact .refl _
  | restart is ok =>
    cases is with
    | reset writing => exact absurd rfl (noReset writing)
    | loss writing => exact absurd rfl (noLoss writing)
    | start => exact absurd rfl noStart

/-- The kinds that a port's role does not allow (R164). -/
theorem admits_false {k : ReqKind} {p : Port} (role : if p = .w then k ∈ [.submit, .cancel, .resume, .retire]
    else k ∈ [.install, .remove, .calibrate, .refillBegin, .refillEnd, .adjust, .setTinClass, .setLine]) :
    admits k p = false := by
  split at role
  · next onW => subst onW; revert role k; decide
  · next counter =>
    cases p
    case w => exact absurd rfl counter
    all_goals revert role k; decide

/-- Settles O23: the role check stands before every check of the request's own. -/
theorem requestOutsideItsRoleIsAnsweredRole : Obligations.RequestOutsideItsRoleIsAnsweredRole := by
  intro i s p k tag body row takes role
  obtain ⟨refusal, effect, request, -⟩ := exec_request row s
  rw [request, take_role takes (admits_false role)]

/-- Settles O25: the one answer of a request taken is the refusal of its role or of its checks, or its OK answer. -/
theorem everyTakenRequestIsAnsweredOnce : Obligations.EveryTakenRequestIsAnsweredOnce := by
  intro i s p k tag body row takes
  obtain ⟨refusal, effect, request, keeps⟩ := exec_request row s
  obtain ⟨b, answered⟩ := take_answered (refusal := refusal) takes keeps
  exact ⟨_, b, request, answered.port.out, answered.port.hold, answered.length, answered.refused⟩

end Sys2Proof.Ports
end

section
/-! The notice queues (R165 to R169): which notice ranks highest and which lowest, what an arrival and a fetch make of a
queue, a notice for several ports, and the statement O44. -/

namespace Sys2Proof.Notices

open Sys2Proof Sys2Proof.Machine Sys2Proof.Requests Sys2Proof.Reading

/-! ### Ranks -/

/-- A fold over levels ends at the level of a notice held that no other level displaces; `good` holds of the levels that
give way to it. -/
theorem foldl_level_eq {op : Nat → Nat → Nat} {good : Nat → Prop} {n : Notice}
    (closed : ∀ a b, good a → good b → good (op a b)) (stays : ∀ b, good b → op n.level b = n.level)
    (wins : ∀ a, good a → op a n.level = n.level) {l : List Notice} {m : Nat} (start : good m)
    (levels : ∀ x ∈ l, good x.level) (reached : m = n.level ∨ n ∈ l) :
    l.foldl (fun m x => op m x.level) m = n.level := by
  induction l generalizing m with
  | nil => exact reached.resolve_right List.not_mem_nil
  | cons x l ih =>
    have this : good x.level := levels x List.mem_cons_self
    refine ih (closed _ _ start this) (fun y held => levels y (List.mem_cons_of_mem x held)) ?_
    rcases reached with rfl | held
    · exact .inl (stays _ this)
    · rcases List.mem_cons.1 held with rfl | held
      · exact .inl (wins _ start)
      · exact .inr held

theorem highestLevel_eq {n : Notice} {l : List Notice} (held : n ∈ l) (le : ∀ x ∈ l, x.level ≤ n.level) :
    highestLevel l = n.level :=
  foldl_level_eq (good := fun a => a ≤ n.level) (fun _ _ => max_le) (fun _ => max_eq_left) (fun _ => max_eq_right)
    (Nat.zero_le _) le (.inr held)

theorem lowestLevel_eq {n : Notice} {l : List Notice} (held : n ∈ l) (le : ∀ x ∈ l, n.level ≤ x.level) :
    lowestLevel l = n.level :=
  foldl_level_eq (good := fun a => n.level ≤ a) (fun _ _ => le_min) (fun _ => min_eq_left) (fun _ => min_eq_right)
    n.level_le le (.inr held)

/-- The oldest notice of a level leaves the queue. -/
theorem dropOldest_append {l r : List Notice} {n : Notice} (older : ∀ x ∈ l, x.level ≠ n.level) :
    dropOldest n.level (l ++ n :: r) = l ++ r := by
  rw [dropOldest, List.eraseP_append_right _ fun x hx => by simpa using older x hx, List.eraseP_cons_of_pos (by simp)]

/-! ### A fetch -/

section
variable {ps : PortState} {l r : List Notice} {n : Notice}

theorem top?_nil (empty : ps.notices = []) : ps.top? = none := by rw [PortState.top?, empty]; rfl

theorem fetch_nil (empty : ps.notices = []) :
    ps.fetch = { ps with notices := [], lost := false, attention := false } := by
  rw [PortState.fetch, empty]; rfl

theorem highestLevel_ranked (higher : ∀ x ∈ l, x.level < n.level) (le : ∀ x ∈ r, x.level ≤ n.level) :
    highestLevel (l ++ n :: r) = n.level := by
  refine highestLevel_eq (by simp) fun x held => ?_
  rcases List.mem_append.1 held with older | newer
  · exact (higher x older).le
  · rcases List.mem_cons.1 newer with rfl | newer
    · exact le_refl _
    · exact le x newer

/-- The highest-ranked notice is the oldest of the highest level held (R166). -/
theorem top?_ranked (queue : ps.notices = l ++ n :: r) (higher : ∀ x ∈ l, x.level < n.level)
    (le : ∀ x ∈ r, x.level ≤ n.level) : ps.top? = some n := by
  have older : l.find? (fun x => x.level == n.level) = none :=
    List.find?_eq_none.2 fun x hx => by simpa using (higher x hx).ne
  rw [PortState.top?, queue, highestLevel_ranked higher le, List.find?_append, older, Option.none_or,
    List.find?_cons_of_pos (by simp)]

theorem fetch_ranked (queue : ps.notices = l ++ n :: r) (higher : ∀ x ∈ l, x.level < n.level)
    (le : ∀ x ∈ r, x.level ≤ n.level) :
    ps.fetch = { ps with notices := l ++ r, lost := false, attention := !(l ++ r).isEmpty } := by
  rw [PortState.fetch, queue, highestLevel_ranked higher le, dropOldest_append fun x hx => (higher x hx).ne]

end

section
variable {s : State} {p : Port} {tag : Byte}

theorem fetchNotice_refused {body : Bytes} (ht : s.Takes p .fetchNotice tag body) (some : body ≠ []) :
    exec (.fetchNotice p tag body) s = .next (s.replied p .fetchNotice tag [0x02, 0, 0]) := by
  refine taken_refused (refusal := emptyBodyRefusal body) (effect := fetchEffect p) ht rfl rfl (r := nak .format) ?_ rfl
  simp [emptyBodyRefusal, some]

/-- FETCH-NOTICE answers what the port holds and leaves the port fetched. -/
theorem fetchNotice_ok (ht : s.Takes p .fetchNotice tag []) {v : PortState} {content : Bytes}
    (fetched : ((s.popHold p).port p).fetch = v) (answer : ((s.popHold p).port p).fetchContent = content) :
    exec (.fetchNotice p tag []) s =
      .next (((s.popHold p).setPort p v).answered p .fetchNotice tag content) :=
  taken_ok (refusal := emptyBodyRefusal []) (effect := fetchEffect p) ht rfl rfl rfl (by rw [fetchEffect, fetched, answer])

end

/-! ### An arrival -/

section
variable {s : State} {p : Port} {n : Notice}

theorem notify_room (room : (s.port p).notices.length < 16) :
    s.notify p n = s.setPort p { s.port p with notices := (s.port p).notices ++ [n], attention := true } :=
  congrArg (s.setPort p) (if_pos room)

/-- At a full queue the oldest notice of the lowest level gives way to a higher one (R167). -/
theorem notify_full {l r : List Notice} {x : Notice} (queue : (s.port p).notices = l ++ x :: r)
    (full : (l ++ x :: r).length = 16) (older : ∀ y ∈ l, x.level < y.level) (newer : ∀ y ∈ r, x.level ≤ y.level) :
    s.notify p n = s.setPort p { s.port p with
      notices := if x.level < n.level then l ++ r ++ [n] else l ++ x :: r, lost := true } := by
  have lowest : lowestLevel (s.port p).notices = x.level := by
    rw [queue]
    refine lowestLevel_eq (by simp) fun y held => ?_
    rcases List.mem_append.1 held with held | held
    · exact (older y held).le
    · rcases List.mem_cons.1 held with rfl | held
      · exact le_refl _
      · exact newer y held
  have noRoom : ¬ (s.port p).notices.length < Config.maxNotices := by rw [queue, full]; exact lt_irrefl 16
  rw [State.notify, PortState.arrive, if_neg noRoom, lowest]
  split
  · rw [queue, dropOldest_append fun y hy => (older y hy).ne']
  · rw [← queue]

end

/-! ### A notice for several ports -/

theorem notifyEach_rest (l : List Port) (n : Notice) (s : State) :
    s.notifyEach l n = { s with ports := (s.notifyEach l n).ports } := by
  induction l generalizing s with
  | nil => rfl
  | cons p l ih => exact ih (s.notify p n)

/-- A notice reaches each of several different ports once. -/
theorem port_notifyEach {l : List Port} (nodup : l.Nodup) (n : Notice) (q : Port) (s : State) :
    (s.notifyEach l n).port q = if q ∈ l then (s.port q).arrive n else s.port q := by
  induction l generalizing s with
  | nil => rfl
  | cons p l ih =>
    obtain ⟨fresh, nodup⟩ := List.nodup_cons.1 nodup
    have next : (s.notifyEach (p :: l) n).port q = _ := ih nodup (s.notify p n)
    rw [next, State.notify, port_setPort]
    by_cases here : p = q
    · subst here; simp [fresh]
    · simp [here, Ne.symm here]

theorem port_notifyAll (s : State) (n : Notice) (p : Port) : (s.notifyAll n).port p = (s.notify p n).port p := by
  have every : p ∈ allPorts := by cases p <;> decide
  rw [State.notifyAll, port_notifyEach (by decide), if_pos every, State.notify, port_setPort_same]

/-- Settles O44: the refusal, the fan-out, the fetch from an empty and from a ranked queue, and the arrival at a queue with
room and at a full one. -/
theorem noticeQueuesRankAndOverflow : Obligations.NoticeQueuesRankAndOverflow := by
  intro s p tag
  have popped : (s.popHold p).port p = { s.port p with hold := (s.port p).hold.tail } := port_setPort_same s p _
  refine ⟨fun body ht some => fetchNotice_refused ht some,
    fun n => ⟨rfl, fun l => rfl, rfl, port_notifyAll s n p, notifyEach_rest _ n s⟩,
    fun ht empty => ?_, fun l n r ht queue higher le => ?_, fun n room => notify_room room,
    fun l x r n queue full older newer => notify_full queue full older newer⟩
  · have held : ((s.popHold p).port p).notices = [] := by rw [popped]; exact empty
    refine fetchNotice_ok ht (fetch_nil held) ?_
    rw [PortState.fetchContent, top?_nil held, fetch_nil held, popped]
    rfl
  · have held : ((s.popHold p).port p).notices = l ++ n :: r := by rw [popped]; exact queue
    refine fetchNotice_ok ht (fetch_ranked held higher le) ?_
    rw [PortState.fetchContent, top?_ranked held higher le, fetch_ranked held higher le, popped]
    rfl

end Sys2Proof.Notices
end

section
/-! The scan of FIND (R171, R172): the entries it examines, the entry it answers, and the values it compares. -/

namespace Sys2Proof.Find

open Sys2Proof Sys2Proof.Machine

/-! ### The entries in their direction -/

/-- The entries of a table from index `start`, upward for direction 0, downward else (R171). -/
def way {n : Nat} (l : List (Fin n)) (start dir : Nat) : List (Fin n) :=
  if dir = 0 then l.filter (fun q => start ≤ q.val) else (l.filter fun q => q.val ≤ start).reverse

theorem scanOrder_eq_way {n : Nat} {l : List (Fin n)} {start : Nat} (up : l.drop start = l.filter fun q => start ≤ q.val)
    (down : l.take (start + 1) = l.filter fun q => q.val ≤ start) (dir : Nat) :
    scanOrder l start dir = way l start dir := by
  unfold scanOrder way
  rw [up, down]

theorem scanOrder_allPos {start : Nat} (inside : start ≤ 15) (dir : Nat) :
    scanOrder allPos start dir = way allPos start dir := by
  have cut : ∀ i : Fin 16, (allPos.drop i.val = allPos.filter fun q => i.val ≤ q.val) ∧
      allPos.take (i.val + 1) = allPos.filter fun q => q.val ≤ i.val := by decide
  obtain ⟨up, down⟩ := cut ⟨start, Nat.lt_succ_of_le inside⟩
  exact scanOrder_eq_way up down dir

theorem scanOrder_allSlots {start : Nat} (inside : start ≤ 23) (dir : Nat) :
    scanOrder allSlots start dir = way allSlots start dir := by
  have cut : ∀ i : Fin 24, (allSlots.drop i.val = allSlots.filter fun q => i.val ≤ q.val) ∧
      allSlots.take (i.val + 1) = allSlots.filter fun q => q.val ≤ i.val := by decide
  obtain ⟨up, down⟩ := cut ⟨start, Nat.lt_succ_of_le inside⟩
  exact scanOrder_eq_way up down dir

/-! ### The scan -/

/-- What FIND answers of the visible entries `seen` in their order: the first that meets the condition, with the number
examined, or their number and the last of them (R172). -/
def answer {β : Type} (num : β → Nat) (record : β → Bytes) (holds : β → Bool) (seen : List β) : Bytes :=
  match seen.find? holds with
  | some x => [1, byte (num x), byte (seen.findIdx holds + 1)] ++ record x
  | none => [0, byte seen.length] ++ match seen.getLast? with
    | some x => [1, byte (num x)]
    | none => [0, 0]

section
variable {β : Type} {num : β → Nat} {record : β → Bytes} {holds : β → Bool} {seen : List β} {x : β}

theorem answer_found (found : seen.find? holds = some x) :
    answer num record holds seen = [1, byte (num x), byte (seen.findIdx holds + 1)] ++ record x := by
  rw [answer, found]

theorem answer_last (missed : seen.find? holds = none) (last : seen.getLast? = some x) :
    answer num record holds seen = [0, byte seen.length] ++ [1, byte (num x)] := by
  rw [answer, missed, last]

theorem answer_empty (missed : seen.find? holds = none) (empty : seen.getLast? = none) :
    answer num record holds seen = [0, byte seen.length] ++ [0, 0] := by
  rw [answer, missed, empty]

end

section
variable {α β : Type} {value : α → Option FindValue} {ok : FindValue → Bool} {view : α → Option β}
  {val : β → FindValue}

theorem scanFrom_hidden (values : ∀ x, value x = (view x).map val) {x : α} (hidden : view x = none) (l : List α)
    (n : Nat) (last : Option α) : scanFrom value ok (x :: l) n last = scanFrom value ok l n last := by
  rw [scanFrom, values, hidden]
  rfl

theorem scanFrom_match (values : ∀ x, value x = (view x).map val) {x : α} {b : β} (seen : view x = some b)
    (meets : ok (val b) = true) (l : List α) (n : Nat) (last : Option α) :
    scanFrom value ok (x :: l) n last = { found := some x, examined := n + 1, last := some x } := by
  rw [scanFrom, values, seen]
  exact if_pos meets

theorem scanFrom_other (values : ∀ x, value x = (view x).map val) {x : α} {b : β} (seen : view x = some b)
    (fails : ¬ ok (val b) = true) (l : List α) (n : Nat) (last : Option α) :
    scanFrom value ok (x :: l) n last = scanFrom value ok l (n + 1) (some x) := by
  rw [scanFrom, values, seen]
  exact if_neg fails

/-- A scan that meets the condition stops at the first visible entry that does. -/
theorem scanFrom_found (values : ∀ x, value x = (view x).map val) {b : β} {l : List α} {n : Nat} {last : Option α}
    (found : (l.filterMap view).find? (fun b => ok (val b)) = some b) :
    ∃ x, view x = some b ∧ (scanFrom value ok l n last).found = some x ∧
      (scanFrom value ok l n last).examined = n + ((l.filterMap view).findIdx (fun b => ok (val b)) + 1) := by
  induction l generalizing n last with
  | nil => cases found
  | cons x l ih =>
    cases seen : view x with
    | none =>
      rw [List.filterMap_cons_none seen] at found ⊢
      rw [scanFrom_hidden values seen]
      exact ih found
    | some c =>
      rw [List.filterMap_cons_some seen] at found ⊢
      by_cases here : ok (val c) = true
      · rw [List.find?_cons_of_pos (p := fun b => ok (val b)) here] at found
        cases found
        rw [scanFrom_match values seen here]
        exact ⟨x, seen, rfl, by simp [here, List.findIdx_cons]⟩
      · rw [List.find?_cons_of_neg (p := fun b => ok (val b)) here] at found
        obtain ⟨y, visible, stops, count⟩ := ih (n := n + 1) (last := some x) found
        rw [scanFrom_other values seen here]
        refine ⟨y, visible, stops, ?_⟩
        simp only [here, List.findIdx_cons, cond_false]
        omega

/-- A scan that meets no condition examines every visible entry. -/
theorem scanFrom_none (values : ∀ x, value x = (view x).map val) {idx : α → Nat} {num : β → Nat}
    (numbers : ∀ x b, view x = some b → idx x = num b) {l : List α} {n : Nat} {last : Option α}
    (missed : (l.filterMap view).find? (fun b => ok (val b)) = none) :
    (scanFrom value ok l n last).found = none ∧
      (scanFrom value ok l n last).examined = n + (l.filterMap view).length ∧
      (scanFrom value ok l n last).last.map idx = ((l.filterMap view).getLast?.map num).or (last.map idx) := by
  induction l generalizing n last with
  | nil => exact ⟨rfl, rfl, rfl⟩
  | cons x l ih =>
    cases seen : view x with
    | none =>
      rw [List.filterMap_cons_none seen] at missed ⊢
      rw [scanFrom_hidden values seen]
      exact ih missed
    | some c =>
      rw [List.filterMap_cons_some seen] at missed ⊢
      have fails : ¬ ok (val c) = true := List.find?_eq_none.1 missed c List.mem_cons_self
      rw [List.find?_cons_of_neg (p := fun b => ok (val b)) fails] at missed
      obtain ⟨nothing, count, final⟩ := ih (n := n + 1) (last := some x) missed
      rw [scanFrom_other values seen fails]
      refine ⟨nothing, by rw [count, List.length_cons]; omega, ?_⟩
      rw [final, List.getLast?_cons, Option.map_some, numbers x c seen]
      cases (l.filterMap view).getLast? <;> rfl

/-- The content of a scan over entries whose visible ones are `view`. -/
theorem scanContent_eq_answer (values : ∀ x, value x = (view x).map val) {idx : α → Nat} {summary : α → Bytes}
    {num : β → Nat} {record : β → Bytes} (numbers : ∀ x b, view x = some b → idx x = num b)
    (records : ∀ x b, view x = some b → summary x = record b) (l : List α) :
    scanContent idx summary (scanFrom value ok l 0 none) =
      answer num record (fun b => ok (val b)) (l.filterMap view) := by
  unfold scanContent answer
  cases found : (l.filterMap view).find? (fun b => ok (val b)) with
  | some b =>
    obtain ⟨x, visible, stops, count⟩ := scanFrom_found (n := 0) (last := none) values found
    rw [stops, count, Nat.zero_add]
    dsimp only
    rw [numbers x b visible, records x b visible]
  | none =>
    obtain ⟨nothing, count, final⟩ := scanFrom_none (n := 0) (last := none) values numbers found
    rw [Option.map_none, Option.or_none] at final
    have number (last : Option α) :
        optional 1 (fun x => [byte (idx x)]) last = optional 1 (fun k => [byte k]) (last.map idx) := by
      cases last <;> rfl
    rw [nothing, count, Nat.zero_add]
    dsimp only
    rw [number, final]
    cases (l.filterMap view).getLast? <;> rfl

end

/-! ### The two tables -/

/-- What FIND answers over the canister table: the installed positions are visible (R172). -/
theorem findContent_canisters {p : Port} {b : Bytes} {s : State} (table : (findBody b).table = 0)
    (start : (findBody b).start ≤ 15) : findContent p b s =
      answer (fun q : Pos => q.val) (canisterSummary s)
        (fun q => meets (findBody b).cond (canisterValue s (findBody b).field q) (findBody b).value)
        ((way allPos (findBody b).start (findBody b).dir).filter fun q => (s.can q).kept.installed) := by
  have visible (q : Pos) : canisterEntry s (findBody b).field q =
      (Option.guard (fun q => (s.can q).kept.installed) q).map (canisterValue s (findBody b).field) := by
    unfold canisterEntry Option.guard
    split <;> rfl
  have itself (q r : Pos) (same : Option.guard (fun q => (s.can q).kept.installed) q = some r) : q = r :=
    (Option.guard_eq_some_iff.1 same).1
  unfold findContent
  rw [if_pos table, scanOrder_allPos start, ← List.filterMap_eq_filter]
  exact scanContent_eq_answer visible (fun q r same => by rw [itself q r same]) (fun q r same => by rw [itself q r same]) _

/-- An occupied slot with its handle and job, where a port sees it: port W every one, a counter port its own jobs
(R172). -/
def jobView (s : State) (p : Port) (i : Fin 24) : Option (Fin 24 × Handle × Job) :=
  match (s.slot i).job with
  | some j => if p = .w ∨ j.owner = p then some (i, ⟨i, (s.slot i).gen⟩, j) else none
  | none => none

theorem jobView_some {s : State} {p : Port} {i : Fin 24} {x : Fin 24 × Handle × Job} (seen : jobView s p i = some x) :
    i = x.1 ∧ slotSummary s i = jobSummary s x.2.1 x.2.2 := by
  cases job : (s.slot i).job with
  | none => rw [jobView, job] at seen; cases seen
  | some j =>
    have summary : slotSummary s i = jobSummary s ⟨i, (s.slot i).gen⟩ j := by rw [slotSummary, job]
    rw [jobView, job] at seen
    dsimp only at seen
    split at seen
    · cases seen; exact ⟨rfl, summary⟩
    · cases seen

theorem jobEntry_eq (s : State) (p : Port) (field : Nat) (i : Fin 24) :
    jobEntry s p field i = (jobView s p i).map fun x => jobValue s field x.2.1 x.2.2 := by
  unfold jobEntry jobView
  cases (s.slot i).job with
  | none => rfl
  | some j => dsimp only; split <;> rfl

/-- What FIND answers over the job table. -/
theorem findContent_jobs {p : Port} {b : Bytes} {s : State} (table : (findBody b).table = 1)
    (start : (findBody b).start ≤ 23) : findContent p b s =
      answer (fun x : Fin 24 × Handle × Job => x.1.val) (fun x => jobSummary s x.2.1 x.2.2)
        (fun x => meets (findBody b).cond (jobValue s (findBody b).field x.2.1 x.2.2) (findBody b).value)
        ((way allSlots (findBody b).start (findBody b).dir).filterMap (jobView s p)) := by
  unfold findContent
  rw [if_neg (by rw [table]; decide), scanOrder_allSlots start]
  exact scanContent_eq_answer (jobEntry_eq s p _) (fun i x seen => by rw [(jobView_some seen).1])
    (fun i x seen => (jobView_some seen).2) _

end Sys2Proof.Find
end

section
/-! FIND (R171, R172, R178, R187): its checks in order, the fields it compares, and the statement O43. -/

namespace Sys2Proof.Find

open Sys2Proof Sys2Proof.Machine Sys2Proof.Submit Sys2Proof.Requests Sys2Proof.Reading

/-! ### The checks -/

theorem fieldOfTable_iff {table : Nat} (h : table ≤ 1) (field : Nat) :
    fieldOfTable table field = true ↔ (table = 0 ∧ field ≤ 5) ∨ (table = 1 ∧ 6 ≤ field ∧ field ≤ 9) := by
  rcases Nat.le_one_iff_eq_zero_or_eq_one.1 h with rfl | rfl <;> simp [fieldOfTable]

theorem condFits_iff (k : FieldKind) (cond : Nat) :
    condFits k cond = true ↔ cond ≤ 1 ∨ (cond ≤ 3 ∧ k = .number) := by simp [condFits]

/-- The body passes the checks of FIND up to the value it compares (R171). -/
structure Suits (r : FindBody) : Prop where
  table : r.table ≤ 1
  field : (r.table = 0 ∧ r.field ≤ 5) ∨ (r.table = 1 ∧ 6 ≤ r.field ∧ r.field ≤ 9)
  cond : r.cond ≤ 1 ∨ (r.cond ≤ 3 ∧ fieldKind r.field = .number)
  value : valueFits (fieldKind r.field) r.value = true

section
variable {s : State} {p : Port} {tag : Byte} {b : Bytes}

theorem findRefusal_length (length : b.length ≠ 17) : findRefusal b s = some (nak .format) := by
  simp [findRefusal, length]

theorem findRefusal_table (length : b.length = 17) (table : 1 < (findBody b).table) :
    findRefusal b s = some (nakField .format 1) := by
  simp [findRefusal, length, table]

/-- A body of its length that names a table is checked field by field. -/
theorem findRefusal_named (length : b.length = 17) (table : (findBody b).table ≤ 1) : findRefusal b s = firstRefusal
    [ refuseIf (!fieldOfTable (findBody b).table (findBody b).field) (nakField .format 2),
      refuseIf (!condFits (fieldKind (findBody b).field) (findBody b).cond) (nakField .format 3),
      refuseIf (!valueFits (fieldKind (findBody b).field) (findBody b).value) (nakField .format 4),
      refuseIf (decide (1 < (findBody b).dir)) (nakField .format 6),
      refuseIf (decide (lastIndex (findBody b).table < (findBody b).start)) (nakField .range 5) ] := by
  simp [findRefusal, length, Nat.not_lt.2 table]

theorem findRefusal_field (length : b.length = 17) (table : (findBody b).table ≤ 1)
    (other : ¬ (((findBody b).table = 0 ∧ (findBody b).field ≤ 5) ∨
      ((findBody b).table = 1 ∧ 6 ≤ (findBody b).field ∧ (findBody b).field ≤ 9))) :
    findRefusal b s = some (nakField .format 2) := by
  rw [← fieldOfTable_iff table, Bool.not_eq_true] at other
  rw [findRefusal_named length table, other]
  rfl

theorem findRefusal_cond (length : b.length = 17) (table : (findBody b).table ≤ 1)
    (field : ((findBody b).table = 0 ∧ (findBody b).field ≤ 5) ∨
      ((findBody b).table = 1 ∧ 6 ≤ (findBody b).field ∧ (findBody b).field ≤ 9))
    (unfit : ¬ ((findBody b).cond ≤ 1 ∨ ((findBody b).cond ≤ 3 ∧ fieldKind (findBody b).field = .number))) :
    findRefusal b s = some (nakField .format 3) := by
  rw [← fieldOfTable_iff table] at field
  rw [← condFits_iff, Bool.not_eq_true] at unfit
  rw [findRefusal_named length table, field, unfit]
  rfl

theorem findRefusal_value (length : b.length = 17) (table : (findBody b).table ≤ 1)
    (field : ((findBody b).table = 0 ∧ (findBody b).field ≤ 5) ∨
      ((findBody b).table = 1 ∧ 6 ≤ (findBody b).field ∧ (findBody b).field ≤ 9))
    (cond : (findBody b).cond ≤ 1 ∨ ((findBody b).cond ≤ 3 ∧ fieldKind (findBody b).field = .number))
    (unfit : valueFits (fieldKind (findBody b).field) (findBody b).value = false) :
    findRefusal b s = some (nakField .format 4) := by
  rw [← fieldOfTable_iff table] at field
  rw [← condFits_iff] at cond
  rw [findRefusal_named length table, field, cond, unfit]
  rfl

/-- A body whose field, condition and value suit each other is checked for direction and start index. -/
theorem findRefusal_suits (length : b.length = 17) (suits : Suits (findBody b)) : findRefusal b s = firstRefusal
    [ refuseIf (decide (1 < (findBody b).dir)) (nakField .format 6),
      refuseIf (decide (lastIndex (findBody b).table < (findBody b).start)) (nakField .range 5) ] := by
  obtain ⟨table, field, cond, value⟩ := suits
  rw [← fieldOfTable_iff table] at field
  rw [← condFits_iff] at cond
  rw [findRefusal_named length table, field, cond, value]
  rfl

theorem find_refused (ht : s.Takes p .find tag b) {r : Nak} (hr : findRefusal b s = some r) :
    exec (.find p tag b) s = .next (s.replied p .find tag r.bytes) :=
  read_refused (refusal := findRefusal b) (content := findContent p b) ht rfl rfl hr rfl

/-- What FIND reads is not what a frame taken changes. -/
theorem findContent_popHold (s : State) (p : Port) (b : Bytes) : findContent p b (s.popHold p) = findContent p b s := by
  have canisters : canisterEntry (s.popHold p) = canisterEntry s := rfl
  have canister : canisterSummary (s.popHold p) = canisterSummary s := rfl
  have jobs : jobEntry (s.popHold p) = jobEntry s := rfl
  have job : slotSummary (s.popHold p) = slotSummary s := rfl
  unfold findContent
  rw [canisters, canister, jobs, job]

/-- FIND with a body that passes its checks answers its scan. -/
theorem find_ok (ht : s.Takes p .find tag b) (length : b.length = 17) (suits : Suits (findBody b))
    (dir : (findBody b).dir ≤ 1) (start : (findBody b).start ≤ lastIndex (findBody b).table) {record : Bytes}
    (content : findContent p b s = record) :
    exec (.find p tag b) s = .next (s.replied p .find tag ([0, 0, 0] ++ record)) := by
  refine read_ok (refusal := findRefusal b) (content := findContent p b) ht rfl rfl ?_
    ((findContent_popHold s p b).trans content)
  rw [findRefusal_suits length suits, decide_eq_false (Nat.not_lt.2 dir), decide_eq_false (Nat.not_lt.2 start)]
  rfl

end

/-! ### The values compared -/

theorem valueFits_text (t : Text) (n : Nat) :
    valueFits (.text n) (.text t) = true ↔ ∀ c ∈ t, 0x20 ≤ c.toNat ∧ c.toNat ≤ 0x7E := by
  simp [valueFits, printable, isPrintable]

theorem valueFits_code (c : Byte) (lo hi : Nat) :
    valueFits (.code lo hi) (.code c) = true ↔ lo ≤ c.toNat ∧ c.toNat ≤ hi := by simp [valueFits]

theorem called_iff (s : State) (h : Handle) : s.called h = true ↔ ∃ c, s.call = some c ∧ c.handle = h := by
  unfold State.called
  cases s.call <;> simp

/-- TINS-LEFT is 0 for a job that is CANCELLING, DONE or CANCELLED (R63, R171). -/
theorem tinsLeftShown_eq (s : State) (h : Handle) (j : Job) : s.tinsLeftShown h j =
    if j.state ∈ [JobState.cancelling, .done, .cancelled] then 0 else s.tinsLeft h j := by
  unfold State.tinsLeftShown
  cases j.state <;> rfl

theorem meets_less (x y : FindValue) : meets 2 x y = true ↔ ∃ m n, x = .number m ∧ y = .number n ∧ m < n := by
  cases x <;> cases y <;> simp [meets]

theorem meets_notLess (x y : FindValue) : meets 3 x y = true ↔ ∃ m n, x = .number m ∧ y = .number n ∧ n ≤ m := by
  cases x <;> cases y <;> simp [meets]

/-! ### The statement -/

/-- Settles O43: the refusals in the order of the checks, the scan of each table, and the fields, conditions and
values. -/
theorem findScansTheVisibleEntries : Obligations.FindScansTheVisibleEntries := by
  refine ⟨fun s p tag b ht => ⟨fun length => find_refused ht (findRefusal_length length),
      fun length => ⟨fun table => find_refused ht (findRefusal_table length table),
        fun table => ⟨fun field => find_refused ht (findRefusal_field length table field),
          fun field => ⟨fun cond => find_refused ht (findRefusal_cond length table field cond),
            fun cond => ⟨fun value => find_refused ht (findRefusal_value length table field cond value),
              fun value => ⟨fun dir => ?_, fun dir start => ?_⟩⟩⟩⟩⟩⟩,
    fun s p tag b ht length => ?_, fun b => rfl, rfl, valueFits_text, valueFits_code,
    fun x => by cases x <;> rfl, fun s q => ⟨rfl, rfl, rfl, rfl, rfl, rfl⟩, fun s h j => ⟨rfl, rfl, rfl, ?_⟩,
    fun x y => ⟨beq_iff_eq, bne_iff_ne, meets_less x y, meets_notLess x y⟩⟩
  · refine find_refused ht (r := nakField .format 6) ?_
    rw [findRefusal_suits length ⟨table, field, cond, value⟩, decide_eq_true dir]
    rfl
  · refine find_refused ht (r := nakField .range 5) ?_
    have outside : lastIndex (findBody b).table < (findBody b).start := by
      rcases start with ⟨table, above⟩ | ⟨table, above⟩
      · rw [table]; exact above
      · rw [table]; exact above
    rw [findRefusal_suits length ⟨table, field, cond, value⟩, decide_eq_false (Nat.not_lt.2 dir),
      decide_eq_true outside]
    rfl
  · intro r cond value dir
    refine ⟨?_, ?_⟩
    · intro table field start way seen
      have scan : findContent p b s = answer (fun q : Pos => q.val) (canisterSummary s)
        (fun q => meets r.cond (canisterValue s r.field q) r.value) seen := findContent_canisters table start
      clear_value seen
      refine find_ok ht length ⟨by rw [table]; decide, .inl ⟨table, field⟩, cond, value⟩ dir
        (by rw [table]; exact start) (scan.trans ?_)
      split
      · next found => exact answer_found found
      · next missed =>
        split
        · next last => exact answer_last missed last
        · next empty => exact answer_empty missed empty
    · intro table low high start way seen
      have scan : findContent p b s = answer (fun x : Fin 24 × Handle × Job => x.1.val)
        (fun x => jobSummary s x.2.1 x.2.2)
        (fun x => meets r.cond (jobValue s r.field x.2.1 x.2.2) r.value) seen := findContent_jobs table start
      clear_value seen
      refine find_ok ht length ⟨by rw [table], .inr ⟨table, low, high⟩, cond, value⟩ dir
        (by rw [table]; exact start) (scan.trans ?_)
      split
      · next found => exact answer_found found
      · next missed =>
        split
        · next last => exact answer_last missed last
        · next empty => exact answer_empty missed empty
  · show FindValue.number (s.tinsLeftShown h j) = _
    rw [tinsLeftShown_eq, State.tinsLeft]
    simp only [called_iff]

end Sys2Proof.Find
end

section
/-! Records of answers and lines (R174, R180 to R186): a record whose fields stand one after another holds each field at
its offset, and a number written into a body is read back (O11). -/

namespace Sys2Proof.Records

open Sys2Proof Sys2Proof.Machine Sys2Proof.Submit Sys2Proof.Requests

/-! ### Numbers read back -/

/-- Settles O11: the bytes before the number are skipped, and at the head of the rest it is read. -/
theorem numberFieldsReadBack : Obligations.NumberFieldsReadBack := by
  intro w n before after fits
  rw [List.append_assoc, uN_append_skip le_rfl, Nat.sub_self, uN_here w fits]

/-- A number wider than its field leaves its low bytes there. -/
theorem be_mod (w n : Nat) : be w (n % 256 ^ w) = be w n := by
  induction w generalizing n with
  | zero => rfl
  | succ w ih =>
    have high : n % 256 ^ (w + 1) / 256 = n / 256 % 256 ^ w := by
      rw [pow_succ', Nat.mod_mul_right_div_self]
    have low : byte (n % 256 ^ (w + 1)) = byte n := by
      refine BitVec.eq_of_toNat_eq ?_
      simp [byte, pow_succ]
    rw [be_succ, be_succ, high, low, ih]

/-! ### Fields held at an offset -/

section
variable {r f g x y : Bytes} {off : Nat}

theorem holdsAt_append (len : x.length = off) : holdsAt (x ++ (f ++ y)) off f := by
  simp [holdsAt, ← len]

/-- A record that holds a field is that field between what stands before and behind it. -/
theorem holdsAt_split (held : holdsAt r off f) (nonempty : f ≠ []) : ∃ x y, r = x ++ (f ++ y) ∧ x.length = off := by
  have inside : off < r.length := by
    by_contra beyond
    rw [holdsAt, List.drop_eq_nil_of_le (not_lt.1 beyond), List.take_nil] at held
    exact nonempty held.symm
  refine ⟨r.take off, (r.drop off).drop f.length, ?_, by simp; omega⟩
  conv_lhs => rw [← List.take_append_drop off r, ← List.take_append_drop f.length (r.drop off)]
  rw [held]

theorem uN_of_holdsAt {w n : Nat} (held : holdsAt r off (be w n)) (fits : n < 256 ^ w) : uN r off w = n := by
  cases w with
  | zero => simp at fits; rw [fits]; rfl
  | succ w =>
    obtain ⟨x, y, rfl, rfl⟩ := holdsAt_split held (List.cons_ne_nil _ _)
    rw [← List.append_assoc]
    exact numberFieldsReadBack _ _ _ _ fits

theorem uN_of_holdsAt_mod {w n : Nat} (held : holdsAt r off (be w n)) : uN r off w = n % 256 ^ w :=
  uN_of_holdsAt ((be_mod w n).symm ▸ held) (Nat.mod_lt _ (by positivity))

theorem getD_of_holdsAt {b : Byte} (held : holdsAt r off [b]) : r.getD off 0 = b := by
  obtain ⟨x, y, rfl, rfl⟩ := holdsAt_split held (List.cons_ne_nil _ _)
  simp

theorem u8_of_holdsAt {n : Nat} (held : holdsAt r off [byte n]) (fits : n < 256) : u8 r off = n := by
  rw [u8, getD_of_holdsAt held, byte_toNat fits]

/-- A part of a field stands at its offset within the field. -/
theorem holdsAt_part {k : Nat} (held : holdsAt r off f) (part : holdsAt f k g) (inside : k + g.length ≤ f.length) :
    holdsAt r (off + k) g := by
  unfold holdsAt at *
  conv_rhs => rw [← part, ← held]
  rw [List.drop_take, List.take_take, List.drop_drop, min_eq_left (by omega)]

end

/-- A run of entries of `w` bytes each. -/
theorem flatMap_length {α : Type} {enc : α → Bytes} {w : Nat} {l : List α} (width : ∀ a ∈ l, (enc a).length = w) :
    (l.flatMap enc).length = w * l.length := by
  rw [List.length_flatMap, List.map_congr_left width]
  simp [Nat.mul_comm]

/-- Entry `i` of a run of entries of `w` bytes stands `w * i` bytes into it. -/
theorem holdsAt_flatMap {α : Type} {enc : α → Bytes} {w : Nat} (width : ∀ a, (enc a).length = w) {l : List α} {i : Nat}
    {a : α} (entry : l[i]? = some a) : holdsAt (l.flatMap enc) (w * i) (enc a) := by
  obtain ⟨inside, rfl⟩ := List.getElem?_eq_some_iff.1 entry
  have cut : l = l.take i ++ l[i] :: l.drop (i + 1) := by simp
  have before : ((l.take i).flatMap enc).length = w * i := by
    rw [flatMap_length fun a _ => width a, List.length_take_of_le inside.le]
  conv => arg 1; rw [cut, List.flatMap_append, List.flatMap_cons]
  exact holdsAt_append before

/-- Entry `i` of a run of one-byte entries stands `i` bytes into it. -/
theorem holdsAt_map {α : Type} {enc : α → Byte} {l : List α} {i : Nat} {a : α} (entry : l[i]? = some a) :
    holdsAt (l.map enc) i [enc a] := by
  have one := holdsAt_flatMap (enc := fun a => [enc a]) (fun _ => rfl) entry
  rwa [Nat.one_mul, ← List.map_eq_flatMap] at one

/-! ### Fields one after another -/

/-- The fields, each with its offset, stand one after another from offset `off` up to offset `stop`. -/
def Tiles (off stop : Nat) : List (Nat × Bytes) → Prop
  | [] => off = stop
  | x :: xs => x.1 = off ∧ Tiles (off + x.2.length) stop xs

/-- A record of `n` bytes that consists of the fields, each at the offset stated with it. -/
structure LaidOut (r : Bytes) (n : Nat) (fields : List (Nat × Bytes)) : Prop where
  bytes : r = fields.flatMap Prod.snd
  tiles : Tiles 0 n fields

theorem Tiles.length {off stop : Nat} {fields : List (Nat × Bytes)} (tiles : Tiles off stop fields) :
    off + (fields.flatMap Prod.snd).length = stop := by
  induction fields generalizing off with
  | nil => exact tiles
  | cons x xs ih =>
    rw [List.flatMap_cons, List.length_append, ← Nat.add_assoc]
    exact ih tiles.2

theorem Tiles.holds {before : Bytes} {stop : Nat} {fields : List (Nat × Bytes)}
    (tiles : Tiles before.length stop fields) :
    ∀ x ∈ fields, holdsAt (before ++ fields.flatMap Prod.snd) x.1 x.2 := by
  induction fields generalizing before with
  | nil => simp
  | cons f fs ih =>
    obtain ⟨offset, rest⟩ := tiles
    rw [List.flatMap_cons, List.forall_mem_cons]
    refine ⟨holdsAt_append offset.symm, ?_⟩
    rw [← List.append_assoc]
    exact ih (by rwa [List.length_append])

theorem LaidOut.length {r : Bytes} {n : Nat} {fields : List (Nat × Bytes)} (laid : LaidOut r n fields) :
    r.length = n := by
  rw [laid.bytes, ← laid.tiles.length, Nat.zero_add]

theorem LaidOut.holds {r : Bytes} {n : Nat} {fields : List (Nat × Bytes)} (laid : LaidOut r n fields) :
    ∀ x ∈ fields, holdsAt r x.1 x.2 := by
  rw [laid.bytes]
  exact Tiles.holds (before := []) laid.tiles

/-! ### Optional fields and places -/

/-- An optional field of `w` bytes: 1 and the field, or zeros throughout (R174). -/
def optionalBytes (w : Nat) : Option Bytes → Bytes
  | some f => 1 :: f
  | none => List.replicate (w + 1) 0

/-- A field filled up with zeros to `w` bytes. -/
def padded (w : Nat) (f : Bytes) : Bytes := f ++ List.replicate (w - f.length) 0

section
variable {α : Type} {enc : α → Bytes} {w : Nat}

theorem optional_eq (w : Nat) (enc : α → Bytes) (o : Option α) : optional w enc o = optionalBytes w (o.map enc) := by
  cases o <;> rfl

theorem optionalBytes_length {o : Option Bytes} (width : ∀ f, o = some f → f.length = w) :
    (optionalBytes w o).length = w + 1 := by
  cases o with
  | none => exact List.length_replicate
  | some f => exact congrArg (· + 1) (width f rfl)

/-- A list that fits its places is written whole and filled up with zeros. -/
theorem places_eq {l : List α} {count : Nat} (width : ∀ a ∈ l, (enc a).length = w) (few : l.length ≤ count) :
    places count w enc l = padded (w * count) (l.flatMap enc) := by
  rw [places, padded, List.take_of_length_le few, flatMap_length width, ← Nat.mul_sub, Nat.mul_comm]

theorem places_length {l : List α} {count : Nat} (width : ∀ a ∈ l, (enc a).length = w) :
    (places count w enc l).length = count * w := by
  have taken := flatMap_length (l := l.take count) fun a listed => width a (List.mem_of_mem_take listed)
  rw [places, List.length_append, taken, List.length_take, List.length_replicate, Nat.mul_comm, ← Nat.add_mul]
  congr 1
  omega

end

end Sys2Proof.Records
end

section
/-! The layouts of the canister summary, the parts of a job summary, the tin result entry, the line status and the label
record (R180 to R186): the fields of each record in their order, and that the record consists of them. -/

namespace Sys2Proof.Layouts

open Sys2Proof Sys2Proof.Machine Sys2Proof.Submit Sys2Proof.Records

/-! ### Fields that several records share -/

/-- The tin at a place of the line, as place and index, if it is one of the job's (R181). -/
def onPlace (h : Handle) (place : Nat) (t : Option TinCtx) : Bytes :=
  match t with
  | some t => if t.handle = h then [byte place, byte t.index] else []
  | none => []

/-- The job's tins on the line, in the order station, M1, M2, lidder (R181). -/
def lineTins (s : State) (h : Handle) : Bytes :=
  onPlace h 1 s.tin ++ onPlace h 2 s.m1.tin ++ onPlace h 3 s.m2.tin ++ onPlace h 4 s.lidder.tin

/-- A tin position's optional handle and index (R182). -/
def tinField (t : Option TinCtx) : Bytes :=
  optionalBytes 3 (t.map fun t => encHandle t.handle ++ [byte t.index])

theorem encTinOf_eq (t : Option TinCtx) : encTinOf t = tinField t := by cases t <;> rfl

theorem tinField_length (t : Option TinCtx) : (tinField t).length = 4 := by cases t <;> rfl

theorem encHandle_length (h : Handle) : (encHandle h).length = 2 := rfl

theorem optionalBytes_map_length {α : Type} {enc : α → Bytes} {w : Nat} (width : ∀ a, (enc a).length = w)
    (o : Option α) : (optionalBytes w (o.map enc)).length = w + 1 :=
  optionalBytes_length fun f found => by
    obtain ⟨a, -, rfl⟩ := Option.map_eq_some_iff.1 found
    exact width a

/-! ### Reserved and free volume -/

theorem sum_filterMap {α β : Type} (f : α → Option β) (g : β → Nat) (l : List α) :
    ((l.filterMap f).map g).sum = (l.map fun a => ((f a).map g).getD 0).sum := by
  induction l with
  | nil => rfl
  | cons a l ih => cases here : f a <;> simp [here, ih]

/-- The reserved steps of a job on a position are those of its components there (R43). -/
theorem reservedOn_eq (j : Job) (q : Pos) :
    j.reservedOn q = ((j.comps.filter fun c : Component => c.pos = q).map fun c : Component => c.reserved).sum := by
  unfold Job.reservedOn
  induction j.comps with
  | nil => rfl
  | cons c cs ih => by_cases here : c.pos = q <;> simp [here, ih]

/-- The steps that the job of a slot reserves on a position, 0 for an empty slot. -/
def slotReserved (q : Pos) (sl : Slot) : Nat :=
  match sl.job with
  | some j => ((j.comps.filter fun c : Component => c.pos = q).map fun c : Component => c.reserved).sum
  | none => 0

/-- Reserved steps are summed over the job slots (R44). -/
theorem reservedSteps_eq (s : State) (q : Pos) :
    s.reservedSteps q = ((List.finRange 24).map fun i => slotReserved q (s.slot i)).sum := by
  have slots : allSlots = List.finRange 24 := by decide
  rw [State.reservedSteps, State.jobs, sum_filterMap, slots]
  refine congrArg List.sum (List.map_congr_left fun i _ => ?_)
  unfold slotReserved
  cases (s.slot i).job with
  | none => rfl
  | some j => exact reservedOn_eq j q

/-! ### The canister summary -/

/-- The fields of R184. -/
def summaryFields (s : State) (q : Pos) : List (Nat × Bytes) :=
  let k := (s.can q).kept
  let steps := ((List.finRange 24).map fun i => slotReserved q (s.slot i)).sum
  [(0, [byte q.val]), (1, [flag k.installed]), (2, [codeCanState (s.can q).state]), (3, k.code), (6, k.lot),
    (14, be 4 k.capacity), (18, be 4 k.heel), (22, be 4 k.lowMark), (26, be 4 k.level), (30, be 4 k.usable),
    (34, be 4 (steps * k.q)), (38, be 4 (k.usable - steps * k.q)), (42, be 2 k.q), (44, be 2 k.density),
    (46, be 2 k.count), (48, [flag (s.can q).latch]), (49, [flag (s.can q).demand]),
    (50, [codePumpState (s.pump q).state]), (51, be 2 (s.pump q).charge), (53, [byte (s.waitList q).length]),
    (54, optionalBytes 2 ((s.waitList q).head?.map encHandle))]

theorem canisterSummary_laidOut {s : State} {q : Pos} (code : (s.can q).kept.code.length = 3)
    (lot : (s.can q).kept.lot.length = 8) : LaidOut (canisterSummary s q) 57 (summaryFields s q) where
  bytes := by simp [canisterSummary, summaryFields, optional_eq, State.freeVol, State.reservedVol, reservedSteps_eq]
  tiles := by
    have head := optionalBytes_map_length encHandle_length (s.waitList q).head?
    simp [summaryFields, Tiles, be_length, code, lot, head]

/-! ### Part 0 of a job summary -/

/-- The called tin of a job as R181 shows it. -/
def calledField (s : State) (h : Handle) : Bytes :=
  match s.call with
  | some c => if c.handle = h then [1, byte c.index] else [0, 0]
  | none => [0, 0]

theorem calledField_eq (s : State) (h : Handle) :
    optional 1 (fun i => [byte i]) (s.calledTin h) = calledField s h := by
  unfold State.calledTin calledField
  cases s.call with
  | none => rfl
  | some c => by_cases own : c.handle = h <;> simp [own, optional_eq, optionalBytes]

theorem calledField_length (s : State) (h : Handle) : (calledField s h).length = 2 := by
  rw [← calledField_eq, optional_eq, optionalBytes_map_length (w := 1) fun _ => rfl]

/-- The tins of a job as place and index are its tins at the places of the line, one after another. -/
theorem tins_flatMap (h : Handle) (l : List (Nat × Option TinCtx)) :
    ((((l.filterMap fun x => x.2.map (x.1, ·)).filter fun x => x.2.handle == h).map
      fun x => (x.1, x.2.index)).flatMap fun x => [byte x.1, byte x.2]) = l.flatMap fun x => onPlace h x.1 x.2 := by
  induction l with
  | nil => rfl
  | cons x l ih =>
    obtain ⟨place, _ | t⟩ := x
    · simpa [onPlace] using ih
    · by_cases own : t.handle = h <;> simpa [onPlace, own] using ih

theorem tinsOf_flatMap (s : State) (h : Handle) :
    ((s.tinsOf h).flatMap fun x => [byte x.1, byte x.2]) = lineTins s h := by
  rw [State.tinsOf, State.tins, tins_flatMap]
  simp [lineTins]

theorem tinsOf_length (s : State) (h : Handle) : (s.tinsOf h).length = (lineTins s h).length / 2 := by
  rw [← tinsOf_flatMap, flatMap_length (w := 2) fun _ _ => rfl]
  omega

/-- The line has four places for tins. -/
theorem tinsOf_few (s : State) (h : Handle) : (s.tinsOf h).length ≤ 4 := by
  rw [State.tinsOf, List.length_map]
  exact (List.length_filter_le _ _).trans (List.length_filterMap_le _ _)

theorem waitPlace_none {s : State} {h : Handle} (unlisted : ∀ r, h ∉ s.waitList r) : waitPlace s h = none := by
  rw [waitPlace, JobRequests.waitPos?_none unlisted]; rfl

/-- A job's place is that in the lowest wait list it stands on (R57). -/
theorem waitPlace_some {s : State} {h : Handle} {r : Pos} {pre post : List Handle}
    (list : s.waitList r = pre ++ h :: post) (first : h ∉ pre) (lowest : ∀ o, o < r → h ∉ s.waitList o) :
    waitPlace s h = some (r, pre.length + 1) := by
  have positions : allPos = List.finRange 16 := by decide
  have found : s.waitPos? h = some r := by
    rw [State.waitPos?, positions, List.find?_eq_some_iff_getElem]
    refine ⟨by simp [list], r.val, by simp, by simp, fun k below => ?_⟩
    simp [lowest ⟨k, by omega⟩ below]
  rw [waitPlace, found, Option.map_some, list, List.idxOf_append_of_notMem first, List.idxOf_cons_self, Nat.add_zero]

/-- The fields of part 0 before the wait list (R181). -/
def part0Head (h : Handle) (j : Job) : List (Nat × Bytes) :=
  [(0, encHandle h), (2, [codePort j.owner]), (3, [codeJobState j.state]), (4, [codeSuspension j.cause]),
    (5, j.orderRef), (17, j.colour), (33, j.base), (37, j.cls), (39, be 2 j.vref), (41, [byte j.n]),
    (42, [codeDisposition j.dSubstep]), (43, [codeDisposition j.dWeighOut]), (44, [codeDisposition j.dWeighNone]),
    (45, [codeDisposition j.dLotBreak]), (46, [codeShortage j.shortage]), (47, [byte j.counted]),
    (48, [byte j.started]), (49, [byte j.delivered]), (50, [byte j.expiries]), (51, [flag j.pendingRe.isSome])]

/-- The fields of part 0 behind the wait list (R181). -/
def part0Tail (s : State) (h : Handle) (j : Job) : List (Nat × Bytes) :=
  [(55, calledField s h), (57, [byte ((lineTins s h).length / 2)]), (58, padded 8 (lineTins s h)),
    (66, [byte j.comps.length])]

/-- The field of the wait list in part 0 (R181). -/
def waitField (s : State) (h : Handle) : Bytes := optional 2 (fun x => [byte x.1.val, byte x.2]) (waitPlace s h)

theorem jobPart0_laidOut {s : State} {h : Handle} {j : Job} (orderRef : j.orderRef.length = 12)
    (colour : j.colour.length = 16) (base : j.base.length = 4) (cls : j.cls.length = 2) :
    LaidOut (jobPart0 s h j) 67 (part0Head h j ++ (52, waitField s h) :: part0Tail s h j) := by
  have tins : places 4 2 (fun x => [byte x.1, byte x.2]) (s.tinsOf h) = padded 8 (lineTins s h) := by
    rw [places_eq (w := 2) (fun _ _ => rfl) (tinsOf_few s h), tinsOf_flatMap]
  refine ⟨?_, ?_⟩
  · simp [jobPart0, part0Head, part0Tail, waitField, calledField_eq, tins, tinsOf_length]
  · have wait : (waitField s h).length = 3 := by
      rw [waitField, optional_eq, optionalBytes_map_length (w := 2) fun _ => rfl]
    have places : (padded 8 (lineTins s h)).length = 8 := by rw [← tins, places_length (w := 2) fun _ _ => rfl]
    simp [part0Head, part0Tail, Tiles, be_length, encHandle_length, calledField_length, orderRef, colour, base, cls,
      wait, places]

/-- The fields of part 0 on both sides of the wait list, and the wait list between them (R181). -/
theorem jobPart0_holds {s : State} {h : Handle} {j : Job} (orderRef : j.orderRef.length = 12)
    (colour : j.colour.length = 16) (base : j.base.length = 4) (cls : j.cls.length = 2) :
    (∀ x ∈ part0Head h j ++ part0Tail s h j, holdsAt (jobPart0 s h j) x.1 x.2) ∧
      holdsAt (jobPart0 s h j) 52 (waitField s h) := by
  have held := (jobPart0_laidOut (s := s) (h := h) orderRef colour base cls).holds
  rw [List.forall_mem_append, List.forall_mem_cons] at held
  obtain ⟨before, wait, behind⟩ := held
  exact ⟨List.forall_mem_append.2 ⟨before, behind⟩, wait⟩

/-! ### Part i of a job summary, and the job summary of FIND -/

/-- The fields of part i (R181). -/
def partFields (j : Job) (i : Nat) (c : Component) : List (Nat × Bytes) :=
  [(0, [byte i]), (1, [byte c.pos.val]), (2, c.code), (5, c.amount), (12, [byte c.scale]), (13, be 4 c.a),
    (17, be 2 c.qSnap), (19, be 4 c.cum), (23, be 4 c.reserved), (27, c.lotSnap), (35, [flag c.substep]),
    (36, [flag c.lotBreak]), (37, optionalBytes 4 (j.pendingRe.map fun l => be 4 (l.getD (i - 1) 0)))]

theorem jobPart_laidOut (j : Job) (i : Nat) {c : Component} (code : c.code.length = 3) (amount : c.amount.length = 7)
    (lot : c.lotSnap.length = 8) : LaidOut (jobPart j i c) 42 (partFields j i c) where
  bytes := by simp [jobPart, partFields, optional_eq, Function.comp_def]
  tiles := by
    have pending := optionalBytes_map_length (fun l : List Nat => be_length 4 (l.getD (i - 1) 0)) j.pendingRe
    simp only [partFields, Tiles, be_length, code, amount, lot, pending, List.length_singleton]
    decide

/-- The fields of R180. -/
def findFields (s : State) (h : Handle) (j : Job) : List (Nat × Bytes) :=
  [(0, encHandle h), (2, [codePort j.owner]), (3, [codeJobState j.state]), (4, [codeSuspension j.cause]),
    (5, j.orderRef), (17, j.colour), (33, j.cls), (35, [byte j.n]), (36, [byte j.counted]), (37, [byte j.started]),
    (38, [byte j.delivered]), (39, [byte (s.tinsLeftShown h j)])]

theorem jobSummary_laidOut (s : State) (h : Handle) {j : Job} (orderRef : j.orderRef.length = 12)
    (colour : j.colour.length = 16) (cls : j.cls.length = 2) : LaidOut (jobSummary s h j) 40 (findFields s h j) where
  bytes := by simp [jobSummary, findFields]
  tiles := by simp [findFields, Tiles, encHandle_length, orderRef, colour, cls]

/-- The tins left that FIND shows (R63, R171). -/
theorem tinsLeft_byte (s : State) (h : Handle) (j : Job) : byte (s.tinsLeftShown h j) =
    if j.state ∈ [JobState.cancelling, .done, .cancelled] then 0
    else byte (j.n - j.started - (if ∃ c, s.call = some c ∧ c.handle = h then 1 else 0)) := by
  rw [Find.tinsLeftShown_eq, State.tinsLeft, apply_ite byte]
  simp only [Find.called_iff]
  rfl

/-! ### The tin result entry -/

/-- The marks of an entry, 0 while absent (R185). -/
def marksField : Option Marks → Byte
  | some m => codeMarks m
  | none => 0

theorem codeMarks_getD (m : Option Marks) : codeMarks (m.getD Marks.none) = marksField m := by cases m <;> rfl

/-- The fields of R185. -/
def entryFields (s : State) (h : Handle) (j : Job) (e : TinResult) : List (Nat × Bytes) :=
  [(0, encHandle h), (2, [byte e.index]), (3, [codeOutcome e.outcome]), (4, [byte e.attempts]),
    (5, [byte j.comps.length]), (6, places 6 4 (be 4) (e.steps.getD [])), (30, optionalBytes 4 (e.expected.map (be 4))),
    (35, optionalBytes 4 (e.net.map be4signed)), (40, [marksField e.marks]), (41, [codeLane e.lane]),
    (42, [byte (attemptOnLine s h e)])]

theorem getD_length_le {o : Option (List Nat)} {n : Nat} (few : ∀ l, o = some l → l.length ≤ n) :
    (o.getD []).length ≤ n := by
  cases o with
  | none => exact Nat.zero_le n
  | some l => exact few l rfl

theorem be4signed_length (z : Int) : (be4signed z).length = 4 := be_length 4 _

theorem tinEntry_laidOut (s : State) (h : Handle) (j : Job) (e : TinResult) :
    LaidOut (tinEntry s h j e) 43 (entryFields s h j e) where
  bytes := by simp [tinEntry, entryFields, optional_eq, codeMarks_getD]
  tiles := by
    have steps := places_length (count := 6) (l := e.steps.getD []) fun n _ => be_length 4 n
    have expected := optionalBytes_map_length (be_length 4) e.expected
    have net := optionalBytes_map_length be4signed_length e.net
    simp [entryFields, Tiles, encHandle_length, steps, expected, net]

theorem calledTin_iff (s : State) (h : Handle) (i : Nat) :
    s.calledTin h = some i ↔ ∃ c, s.call = some c ∧ c.handle = h ∧ c.index = i := by
  unfold State.calledTin
  cases s.call <;> simp

/-- An attempt of a PENDING tin is shown as called, then as at the station (R80, R185). -/
theorem attempt_byte (s : State) (h : Handle) (e : TinResult) : byte (attemptOnLine s h e) =
    if e.outcome ≠ .pending then 0
    else if ∃ c, s.call = some c ∧ c.handle = h ∧ c.index = e.index then 1
    else if ∃ t, s.tin = some t ∧ t.handle = h ∧ t.index = e.index then 2 else 0 := by
  unfold attemptOnLine
  by_cases pending : e.outcome = .pending
  · simp only [pending, beq_self_eq_true, if_true, beq_iff_eq, calledTin_iff, ne_eq, not_true_eq_false, if_false]
    by_cases called : ∃ c, s.call = some c ∧ c.handle = h ∧ c.index = e.index
    · rw [if_pos called, if_pos called]; rfl
    · rw [if_neg called, if_neg called]
      cases s.tin with
      | none => simp [byte]
      | some t => by_cases here : t.handle = h ∧ t.index = e.index <;> simp [here, byte]
  · simp [pending, byte]

/-! ### The line status -/

/-- The fields of R182 before the drive channels. -/
def statusHead (s : State) : List (Nat × Bytes) :=
  let v := s.line.settings
  [(0, [codeLineMode s.line.mode]), (1, optionalBytes 1 (s.line.guard.map fun g => [codeGuard g])),
    (3, be 2 v.callTimeout), (5, [byte v.quota]), (6, be 2 v.scaleSettle), (8, be 2 v.weighFloor), (10, be 2 v.absTol),
    (12, [byte v.relTol]), (13, [byte s.queue.length]), (14, places 24 2 encHandle s.queue), (62, [byte s.quota]),
    (63, optionalBytes 3 (s.call.map fun c => encHandle c.handle ++ [byte c.index])),
    (67, be 2 (s.callTimer.getD 0 / 1000)), (69, [codeStation s.station]), (70, tinField s.tin)]

/-- The state of a drive channel and its position, 0 while it is FREE (R182). -/
def chanField (s : State) (d : ChanId) : Bytes :=
  [codeChan (s.chan d).state, if (s.chan d).state = .free then 0 else byte (s.chan d).pos.val]

/-- The fields of R182 from the drive channels to the job slots. -/
def statusLine (s : State) : List (Nat × Bytes) :=
  [(82, [codeCapture s.capture]), (83, [flag (s.tin.bind fun t => t.tare).isSome]),
    (84, [codeMixState s.m1.state]), (85, tinField s.m1.tin), (89, [codeMixState s.m2.state]), (90, tinField s.m2.tin),
    (94, [codeLidState s.lidder.state]), (95, tinField s.lidder.tin), (99, [codeLane s.lidder.dest]),
    (100, [byte s.lidder.claims.length]), (101, places 3 1 (fun x => [codeSource x]) s.lidder.claims),
    (104, [byte s.lanes.la, byte s.lanes.lb, byte s.lanes.lc, byte s.lanes.lx])]

/-- The fields of R182, with the runs of the drive channels, the job slots and the positions as one field each. -/
def statusFields (s : State) (p : Port) : List (Nat × Bytes) :=
  statusHead s ++ (74, allChans.flatMap (chanField s)) :: statusLine s ++
  (108, allSlots.map fun i => slotByte (s.slot i)) ::
  (132, be 2 (400 - (s.jobs.map fun x => x.2.n).sum)) ::
  (134, allPos.map fun r => codeCanState (s.can r).state) ::
  (150, allPos.map fun r => byte (s.waitList r).length) ::
  [(166, [byte (s.port p).notices.length]), (167, [flag (s.port p).lost])]

theorem freeEntries_eq (s : State) : s.freeEntries = 400 - (s.jobs.map fun x => x.2.n).sum := rfl

theorem lineStatus_laidOut (s : State) (p : Port) : LaidOut (lineStatus s p) 168 (statusFields s p) where
  bytes := by
    unfold lineStatus statusFields statusHead statusLine chanField
    simp only [optional_eq, encTinOf_eq, encSettings, encTin, Option.map_map, Function.comp_def, List.flatMap_cons,
      List.flatMap_nil, List.append_assoc, List.cons_append, List.nil_append, List.append_nil]
    rw [freeEntries_eq, State.callSeconds]
  tiles := by
    have guard := optionalBytes_map_length (enc := fun g => [codeGuard g]) (w := 1) (fun _ => rfl) s.line.guard
    have queue := places_length (count := 24) (l := s.queue) fun h _ => encHandle_length h
    have call := optionalBytes_map_length (enc := fun c : Call => encHandle c.handle ++ [byte c.index]) (w := 3)
      (fun _ => rfl) s.call
    have claims := places_length (count := 3) (enc := fun x => [codeSource x]) (w := 1) (l := s.lidder.claims)
      fun _ _ => rfl
    simp [statusFields, statusHead, statusLine, chanField, Tiles, be_length, tinField_length, guard, queue, call,
      claims, allChans, allSlots, allPos]

/-- The fields of R182 that are not part of a run. -/
theorem lineStatus_holds (s : State) (p : Port) :
    ∀ x ∈ statusHead s ++ statusLine s ++ (132, be 2 (400 - (s.jobs.map fun x => x.2.n).sum)) ::
      [(166, [byte (s.port p).notices.length]), (167, [flag (s.port p).lost])], holdsAt (lineStatus s p) x.1 x.2 := by
  intro x listed
  refine (lineStatus_laidOut s p).holds x ?_
  simp only [statusFields, List.mem_append, List.mem_cons] at listed ⊢
  tauto

theorem lineStatus_channel (s : State) (p : Port) (d : ChanId) :
    holdsAt (lineStatus s p) (74 + 2 * d.val) (chanField s d) := by
  have listed : allChans[d.val]? = some d := by rw [Bursts.allChans_eq]; simp
  have run := (lineStatus_laidOut s p).holds (74, allChans.flatMap (chanField s)) (by simp [statusFields])
  have width : (allChans.flatMap (chanField s)).length = 8 := rfl
  exact holdsAt_part run (holdsAt_flatMap (w := 2) (fun _ => rfl) listed) (by rw [width]; simp [chanField]; omega)

theorem lineStatus_slot (s : State) (p : Port) (k : Fin 24) :
    holdsAt (lineStatus s p) (108 + k.val) [slotByte (s.slot k)] := by
  have listed : allSlots[k.val]? = some k := by revert k; decide
  have run := (lineStatus_laidOut s p).holds (108, allSlots.map fun i => slotByte (s.slot i)) (by simp [statusFields])
  exact holdsAt_part run (holdsAt_map listed) (by simp [allSlots])

theorem lineStatus_position (s : State) (p : Port) (r : Pos) :
    holdsAt (lineStatus s p) (134 + r.val) [codeCanState (s.can r).state] ∧
      holdsAt (lineStatus s p) (150 + r.val) [byte (s.waitList r).length] := by
  have listed : allPos[r.val]? = some r := by revert r; decide
  have laid := (lineStatus_laidOut s p).holds
  have states := laid (134, allPos.map fun r => codeCanState (s.can r).state) (by simp [statusFields])
  have lists := laid (150, allPos.map fun r => byte (s.waitList r).length) (by simp [statusFields])
  exact ⟨holdsAt_part states (holdsAt_map listed) (by simp [allPos]),
    holdsAt_part lists (holdsAt_map listed) (by simp [allPos])⟩

/-! ### The label record -/

/-- The fields of R186. -/
def labelFields (l : Label) : List (Nat × Bytes) :=
  [(0, l.orderRef), (12, l.colour), (28, encHandle l.handle), (30, [byte l.index]), (31, [byte l.count]), (32, l.cls),
    (34, l.base), (38, [byte l.lotCodes.length]), (39, places 6 3 id l.lotCodes), (57, [codeMarks l.marks]),
    (58, optionalBytes 4 (l.expected.map (be 4))), (63, optionalBytes 4 (l.net.map be4signed)), (68, [codeWord l.word])]

theorem label_laidOut {l : Label} (orderRef : l.orderRef.length = 12) (colour : l.colour.length = 16)
    (cls : l.cls.length = 2) (base : l.base.length = 4) (lots : ∀ x ∈ l.lotCodes, x.length = 3) :
    LaidOut l.bytes 69 (labelFields l) where
  bytes := by simp [Label.bytes, labelFields, optional_eq]
  tiles := by
    have lotPlaces := places_length (count := 6) (enc := id) lots
    have expected := optionalBytes_map_length (be_length 4) l.expected
    have net := optionalBytes_map_length be4signed_length l.net
    simp [labelFields, Tiles, encHandle_length, orderRef, colour, cls, base, lotPlaces, expected, net]

/-! ### Notice records -/

theorem noticeRecord_eq {n : Notice} {len : Nat} (length : (noticeContent n).length = len) :
    noticeRecord n = [codeNotice n, byte n.level, byte len] ++ noticeContent n := by
  rw [noticeRecord, length]

end Sys2Proof.Layouts
end

section
/-! The records of answers, notices and labels (R44, R180 to R187): the statement O32. -/

namespace Sys2Proof.Layouts

open Sys2Proof Sys2Proof.Machine Sys2Proof.Submit Sys2Proof.Records

/-- Settles O32: each record consists of its fields, and a field of a number is read back as that number. -/
theorem recordsHaveTheirLayouts : Obligations.RecordsHaveTheirLayouts := by
  refine ⟨?_, ?_, rfl, rfl, rfl, rfl, rfl, rfl, rfl, rfl, rfl, rfl, rfl, rfl, rfl, rfl, rfl, rfl, rfl, rfl, rfl, rfl⟩
  · intro s p q h j c e l i canCode canLot orderRef colour base cls code amount lotSnap labelRef labelColour labelCls
      labelBase lots
    have summary := canisterSummary_laidOut canCode canLot
    have part0 := jobPart0_laidOut (s := s) (h := h) orderRef colour base cls
    have part := jobPart_laidOut j i code amount lotSnap
    have find := jobSummary_laidOut s h orderRef colour cls
    have entry := tinEntry_laidOut s h j e
    have status := lineStatus_laidOut s p
    have label := label_laidOut labelRef labelColour labelCls labelBase lots
    have steps := reservedSteps_eq s q
    obtain ⟨outside, wait⟩ := jobPart0_holds (s := s) (h := h) orderRef colour base cls
    refine ⟨summary.length, part0.length, part.length, find.length, entry.length, status.length, label.length,
      uN_of_holdsAt (summary.holds (26, be 4 (s.can q).kept.level) (by simp [summaryFields])),
      uN_of_holdsAt (summary.holds (46, be 2 (s.can q).kept.count) (by simp [summaryFields])),
      (uN_of_holdsAt_mod (summary.holds (51, be 2 (s.pump q).charge) (by simp [summaryFields]))).symm,
      uN_of_holdsAt (outside (39, be 2 j.vref) (by simp [part0Head])),
      u8_of_holdsAt (outside (47, [byte j.counted]) (by simp [part0Head])),
      uN_of_holdsAt (part.holds (19, be 4 c.cum) (by simp [partFields])),
      u8_of_holdsAt (entry.holds (4, [byte e.attempts]) (by simp [entryFields])),
      getD_of_holdsAt (status.holds (69, [codeStation s.station]) (by simp [statusFields, statusHead])),
      getD_of_holdsAt (status.holds (167, [flag (s.port p).lost]) (by simp [statusFields])),
      getD_of_holdsAt (label.holds (68, [codeWord l.word]) (by simp [labelFields])), ?_⟩
    intro handle maybe pad signed marksByte tinAt
    refine ⟨⟨steps, ?_, summary.holds⟩, ⟨outside, ?_, ?_⟩, part.holds, ?_, ?_, ?_, lineStatus_channel s p,
      lineStatus_slot s p, lineStatus_position s p, ?_⟩
    · exact congrArg (fun n => (s.can q).kept.usable - n * (s.can q).kept.q) steps
    · intro unlisted
      rw [waitField, waitPlace_none unlisted] at wait
      exact wait
    · intro r pre post list first lowest
      rw [waitField, waitPlace_some list first lowest] at wait
      exact wait
    · rw [← tinsLeft_byte]
      exact find.holds
    · intro few
      have stepPlaces : places 6 4 (be 4) (e.steps.getD []) = pad 24 ((e.steps.getD []).flatMap (be 4)) :=
        places_eq (fun n _ => be_length 4 n) (getD_length_le few)
      rw [← stepPlaces, ← attempt_byte]
      exact entry.holds
    · intro queue claims
      have queuePlaces : places 24 2 encHandle s.queue = pad 48 (s.queue.flatMap handle) :=
        places_eq (fun _ _ => rfl) queue
      have claimPlaces :
          places 3 1 (fun x => [codeSource x]) s.lidder.claims = pad 3 (s.lidder.claims.map codeSource) := by
        rw [List.map_eq_flatMap]
        exact places_eq (fun _ _ => rfl) claims
      rw [← queuePlaces, ← claimPlaces]
      exact lineStatus_holds s p
    · intro few
      have lotPlaces : places 6 3 id l.lotCodes = pad 18 l.lotCodes.flatten := by
        rw [← List.flatMap_id]
        exact places_eq lots few
      rw [← lotPlaces]
      exact label.holds
  · intro g m h i st c cls base x k p v steps d mode clsLength baseLength name
    refine ⟨rfl, rfl, rfl, rfl, ?_, ?_, rfl, rfl, rfl, rfl, rfl, rfl⟩
    · exact noticeRecord_eq (len := 9) (by simp [noticeContent, encHandle, clsLength, baseLength])
    · exact noticeRecord_eq (len := 6) (by simp [noticeContent, clsLength, baseLength])

end Sys2Proof.Layouts
end

section
/-! What a command may find at once: the front of the queue (O1), operands that no port or line carries (O7), and a
request that its port does not take now (O24). -/

namespace Sys2Proof.Commands

open Sys2Proof Sys2Proof.Machine

/-! ### The front of the queue -/

/-- Settles O1: by the definition of `step`, a queue with a front command leaves its rest pending. -/
theorem stepRunsFrontCommand : Obligations.StepRunsFrontCommand := fun _ _ => rfl

/-! ### Operands outside the bounds of their port or line -/

section
variable {s : State}

theorem exec_frameReceived_illFormed {body : Bytes} (long : 240 < body.length) (p : Port) (kind tag : Byte)
    (crc : BitVec 16) : exec (.frameReceived p kind tag body crc) s = .refused (.illFormed "FRAME_RECEIVED") := by
  have unfit : ¬ bodyFits body = true := fun fits => absurd (of_decide_eq_true fits) (Nat.not_le.2 long)
  show execFrameReceived p kind tag body crc s = _
  rw [execFrameReceived, if_neg unfit]

theorem exec_reading_illFormed {mass : Nat} (heavy : 100000000 < mass) (stable overload : Bool) :
    exec (.reading mass stable overload) s = .refused (.illFormed "READING") := by
  have unfit : ¬ mass ≤ Config.maxMass := Nat.not_le.2 heavy
  show execReading mass stable overload s = _
  rw [execReading, if_neg unfit]

theorem scanFits_iff {cls base : Text} : scanFits cls base = true ↔ cls.length = 2 ∧ base.length = 4 := by
  simp [scanFits]

theorem exec_scan_illFormed {cls base : Text} (lengths : ¬ (cls.length = 2 ∧ base.length = 4)) :
    exec (.scan cls base) s = .refused (.illFormed "SCAN") := by
  show execScan cls base s = _
  rw [execScan, if_neg (scanFits_iff.not.2 lengths)]

theorem exec_lengthByteAbove240_illFormed {len : Byte} (fits : len.toNat ≤ 240) (p : Port) :
    exec (.lengthByteAbove240 p len) s = .refused (.illFormed "LENGTH_BYTE_ABOVE_240") := by
  have unfit : ¬ Config.maxBody < len.toNat := Nat.not_lt.2 fits
  show execLengthByteAbove240 p len s = _
  rw [execLengthByteAbove240, if_neg unfit]

end

/-- Settles O7: each of the four commands stands behind the bound of its operand. -/
theorem operandsNoLineCarriesAreRefused : Obligations.OperandsNoLineCarriesAreRefused := fun _ =>
  ⟨fun p kind tag _ crc long => exec_frameReceived_illFormed long p kind tag crc,
    fun _ stable overload heavy => exec_reading_illFormed heavy stable overload,
    fun _ _ lengths => exec_scan_illFormed lengths,
    fun p _ fits => exec_lengthByteAbove240_illFormed fits p⟩

/-! ### A request that its port does not take -/

/-- Settles O24: every request row is a taking at its port, and one that is not taken leaves the state. -/
theorem requestNotTakenChangesNothing : Obligations.RequestNotTakenChangesNothing := by
  intro i s p k tag body row waits
  obtain ⟨refusal, effect, request, -⟩ := Ports.exec_request row s
  rw [request, take_not waits]

end Sys2Proof.Commands
end

section
/-! Reset (section 9.5): a new part's first start reads an empty store and leaves the state after reset, in which no
job, tin, call or canister stands, so that every law is met (O3). -/

namespace Sys2Proof.Reset

open Sys2Proof Sys2Proof.Machine

/-! ### The first start of a new part -/

theorem startCan_empty (p : Pos) : Store.empty.startCan p = (CanRecord.vacant, false) :=
  Start.startCan_none _ (by simp [Store.empty])

theorem discards_empty : Store.empty.discards = 0 := by
  simp only [Store.discards, startCan_empty]
  rfl

theorem afterStart_empty_canisters : Store.empty.afterStart.canisters = Store.empty.canisters := by
  ext1 p hp
  have stored : Store.empty.canisters[(⟨p, hp⟩ : Pos)] = none := by simp [Store.empty]
  have written := Start.afterStart_canister Store.empty ⟨p, hp⟩
  rw [stored, Option.map_none] at written
  exact written.trans stored.symm

theorem start_empty_canisters (g : GuardState) (l : List Instr) :
    (State.start g Store.empty l).canisters = State.reset.canisters := by
  ext1 p hp
  have can : (State.start g Store.empty l).can ⟨p, hp⟩ = Canister.vacant := by
    rw [Start.start_can, startCan_empty]; rfl
  exact can.trans (by simp [State.reset])

/-- The start from an empty store with the guard closed is the state after reset. -/
theorem start_empty : State.start .closed Store.empty [] = State.reset := by
  rw [Start.start_eq .closed Store.empty [] (settings := Settings.default) rfl discards_empty, start_empty_canisters,
    afterStart_empty_canisters]
  rfl

theorem partStart_newPart : exec .partStart (State.dark .closed Store.empty []) = .next State.reset := by
  rw [Start.exec_partStart_inactive (show Power.off ≠ .on by decide)]
  exact congrArg _ start_empty

/-! ### What stands after reset -/

@[simp] theorem reset_can (p : Pos) : State.reset.can p = Canister.vacant := by simp [State.can, State.reset]

@[simp] theorem reset_pump (p : Pos) : State.reset.pump p = Pump.start := by simp [State.pump, State.reset]

@[simp] theorem reset_waitList (p : Pos) : State.reset.waitList p = [] := by simp [State.waitList, State.reset]

@[simp] theorem reset_chan (d : ChanId) : State.reset.chan d = Channel.free := by simp [State.chan, State.reset]

@[simp] theorem reset_mixer (m : MixerId) : State.reset.mixer m = Mixer.idle := by cases m <;> rfl

theorem reset_noJob {i : Fin 24} {j : Job} : (State.reset.slot i).job ≠ some j := by
  rw [JobTable.slot_reset]; nofun

theorem reset_jobs : State.reset.jobs = [] := by simp [State.jobs, JobTable.slot_reset]

theorem reset_noTin {t : TinCtx} : State.reset.tin ≠ some t := by
  rw [show State.reset.tin = none from rfl]; nofun

theorem reset_noCall {c : Call} : State.reset.call ≠ some c := by
  rw [show State.reset.call = none from rfl]; nofun

/-- No canister is installed. -/
theorem reset_notInstalled {p : Pos} : (State.reset.can p).kept.installed ≠ true := by rw [reset_can]; nofun

theorem reset_reservedSteps (p : Pos) : State.reset.reservedSteps p = 0 := by
  simp [State.reservedSteps, reset_jobs]

/-! ### The laws of the single blocks -/

theorem reset_portsOk : State.reset.PortsOk := start_empty ▸ Ports.portsOk_start .closed Store.empty []

theorem reset_lineOk : State.reset.line.Ok := start_empty ▸ LineModes.lineOk_start .closed Store.empty []

theorem reset_gensOk : State.reset.GensOk := fun i => by rw [JobTable.slot_reset]; decide

theorem reset_poolOk : State.reset.PoolOk := by rw [State.PoolOk, reset_jobs]; decide

theorem reset_cansOk : State.reset.CansOk := fun p => by
  rw [reset_can, if_pos (show State.reset.power = .on from rfl)]
  exact StockLaws.vacant_sound

theorem reset_pumpsOk : State.reset.PumpsOk := fun p => by rw [reset_pump]; exact Nat.zero_le _

theorem reset_classesOk : State.reset.ClassesOk := ⟨Nat.zero_le _, List.nodup_nil, fun _ => rfl⟩

theorem reset_cumOk : State.reset.CumOk := fun _ _ job => absurd job reset_noJob

theorem reset_codesOk : State.reset.CodesOk := fun _ _ installed => absurd installed reset_notInstalled

/-! ### The laws that span the blocks -/

theorem reset_stationOk : State.reset.StationOk where
  call := rfl
  callTimer := rfl
  tin := rfl
  stage _ tin := absurd tin reset_noTin
  drip := rfl
  tare := by decide
  gross := by decide
  scale := rfl
  halted mode := absurd mode (by decide)

theorem reset_mixersOk : State.reset.MixersOk where
  each m := by rw [reset_mixer]; exact Counter.idle_ok _
  one := by decide
  loading m h := by rw [reset_mixer] at h; cases h

theorem reset_lidderOk : State.reset.LidderOk where
  tin := rfl
  label := rfl
  dest := rfl
  command := by decide
  stage t tin := by rw [show State.reset.lidder = Lidder.start from rfl] at tin; cases tin
  nodup := by decide
  mixers m := by rw [reset_mixer]; cases m <;> decide
  station := ⟨fun claimed => absurd claimed (by decide), fun ⟨_, _, tin, _⟩ => absurd tin reset_noTin⟩

theorem reset_floorOk : State.reset.FloorOk where
  station := reset_stationOk
  stop := ⟨fun _ tin => absurd tin reset_noTin, fun _ tin => absurd tin reset_noTin,
    fun _ tin => absurd tin reset_noTin⟩
  chans := ⟨fun _ d => by rw [reset_chan]; rfl, fun d => by rw [reset_chan]; rfl, fun d => by rw [reset_chan]; rfl⟩
  mixers := reset_mixersOk
  lidder := reset_lidderOk

theorem reset_jobsOk : State.reset.JobsOk where
  queued := ⟨List.nodup_nil, fun _ queued => absurd queued List.not_mem_nil⟩
  waiting p := by rw [reset_waitList]; exact ⟨List.nodup_nil, fun _ listed => absurd listed List.not_mem_nil⟩
  listed _ _ job := absurd job reset_noJob
  once p _ _ listed := by rw [reset_waitList] at listed; cases listed
  called _ call := absurd call reset_noCall
  tins _ stands := absurd stands List.not_mem_nil
  rejected _ _ tin := absurd tin reset_noTin
  each _ _ job := absurd job reset_noJob

theorem reset_stockOk : State.reset.StockOk where
  heel _ installed := absurd installed reset_notInstalled
  codes := reset_codesOk
  reserve p := by rw [reset_reservedSteps, Nat.zero_mul]; exact Nat.zero_le _
  claims _ _ job := absurd job reset_noJob
  names _ _ job := absurd job reset_noJob
  tin _ _ tin := absurd tin reset_noTin
  chans _ _ _ tin := absurd tin reset_noTin
  call _ _ call := absurd call reset_noCall
  burst p h := by rw [reset_pump] at h; cases h
  recirc p h := by rw [reset_pump] at h; cases h

theorem reset_lawful : State.reset.Lawful where
  floor := reset_floorOk
  jobs := reset_jobsOk
  stock := reset_stockOk
  cans := reset_cansOk
  pumps := reset_pumpsOk
  cum := reset_cumOk
  gens := reset_gensOk

/-- Settles O3: the start reads an empty store, and each law is met because what it speaks of is empty or at its start
value. -/
theorem resetIsANewPartsFirstStart : Obligations.ResetIsANewPartsFirstStart :=
  ⟨partStart_newPart, reset_portsOk, LineModes.lanesOk_reset, reset_gensOk, reset_poolOk, reset_lineOk, reset_cansOk,
    reset_pumpsOk, List.nodup_nil, reset_classesOk, reset_cumOk, reset_codesOk, reset_lawful⟩

end Sys2Proof.Reset
end
